-- ==== Sys2Proof/Word.lean ====
section
/-! DEFINITION. The unit of every transfer: the byte (spec/20_memory.md R87, spec/00_scope.md R16). -/

namespace Sys2Proof

/-- A byte: an unsigned 8-bit value, bit 7 the most significant (00_scope.md R16). -/
abbrev Byte := BitVec 8

/-- A byte sequence, element 0 first (00_scope.md R16, 20_memory.md R83). -/
abbrev Bytes := List Byte

/-- `ceil_div(a, b) = (a + b - 1) / b` on naturals (00_scope.md R16). -/
def ceilDiv (a b : Nat) : Nat := (a + b - 1) / b

end Sys2Proof
end

