-- ==== Sys2Proof/Syntax.lean ====
section
/-! DEFINITION. The command set: one constructor of `Instr` per row of spec/opcode_table.json
(spec/00_scope.md R4, spec/30_encoding.md R103, R105, R110). -/

namespace Sys2Proof

/-- The operands of a filled inbound frame: every raw byte but the tag, under the names of 30_encoding.md R104.
The trailer has two bytes, but one in a frame of four bytes, where the trailing two overlap the declared length
(R104, 90_conflicts.md C1; log 16). -/
structure Frame where
  start : Byte
  declLen : Byte
  payload : Bytes
  trailer : Bytes
deriving DecidableEq, Repr

/-- The raw frame's length (40_frame_codec.md R142): three header bytes, the payload and the trailer. -/
def Frame.rawLen (f : Frame) : Nat := 3 + f.payload.length + f.trailer.length

/-- The byte sequences of a host request (10_state.md R44). An absent one is the empty sequence. -/
structure HostArgs where
  input : Bytes
  key : Bytes
  ad : Bytes
  nonce : Bytes
deriving DecidableEq, Repr

/-- The command set of LWC-SPE: ten outbound commands, three inbound frame classes, four host operations. -/
inductive Instr where
  /-- SETI.CLR: clear the target's input buffer (41_segmenter.md R175). -/
  | setiClr
  /-- SETI.APP: append a chunk to the target's input buffer (41_segmenter.md R176). -/
  | setiApp (chunk : Bytes)
  /-- SETK.CLR: clear the target's key buffer (41_segmenter.md R175). -/
  | setkClr
  /-- SETK.APP: append a chunk to the target's key buffer (41_segmenter.md R176). -/
  | setkApp (chunk : Bytes)
  /-- SETA.CLR: clear the target's associated-data buffer (41_segmenter.md R175). -/
  | setaClr
  /-- SETA.APP: append a chunk to the target's associated-data buffer (41_segmenter.md R176). -/
  | setaApp (chunk : Bytes)
  /-- PERF.ENC: start an encryption (43_sequencer.md R242). -/
  | perfEnc (nonce : Bytes)
  /-- PERF.DEC: start a decryption (43_sequencer.md R242). -/
  | perfDec (nonce : Bytes)
  /-- HASH: start a hash (43_sequencer.md R243). -/
  | hash
  /-- STATUS: query the target's status (43_sequencer.md R250). -/
  | status
  /-- RSP.R: an inbound frame with tag 'r' (42_accumulator.md R202, 43_sequencer.md R251). -/
  | rspR (f : Frame)
  /-- RSP.E: an inbound frame with tag 'e' (40_frame_codec.md R146, 42_accumulator.md R205). -/
  | rspE (f : Frame)
  /-- RSP.T: an inbound frame with tag 't' (42_accumulator.md R204). -/
  | rspT (f : Frame)
  /-- HOST.ENCRYPT: host operation 0 (43_sequencer.md R260). -/
  | hostEncrypt (a : HostArgs)
  /-- HOST.DECRYPT: host operation 1 (43_sequencer.md R261). -/
  | hostDecrypt (a : HostArgs)
  /-- HOST.HASH: host operation 2 (43_sequencer.md R262). -/
  | hostHash (a : HostArgs)
  /-- HOST.STATUS: host operation 3 (43_sequencer.md R263). -/
  | hostStatus (a : HostArgs)
deriving DecidableEq, Repr

end Sys2Proof
end

