-- ==== Sys2Proof/Config.lean ====
section
/-! DEFINITION. What an implementation fixes and what the spec leaves open: the OPEN parameters of
spec/00_scope.md R13 and the answers of the external agents (spec/92_eei_decisions.md D30). An opaque constant here has
no value that a proof can see, so a theorem about it holds whatever it is. The literals that the spec does fix
(`CHUNK_SIZE` and so on) stand in Decode.lean, and so does the OPEN parameter `WIRE_WRAP`. -/

namespace Sys2Proof

/-- Which codes the type `Sample` admits beside code 0. OPEN: no proof can see which (00_scope.md R13; log 9). -/
opaque Config.sampleCode : Nat → Bool

/-- One trace sample. The type is the OPEN parameter `Sample` (00_scope.md R13, 93_implementation_defined.md I6): the codes
that the opaque `Config.sampleCode` admits, and code 0, so that a sample exists. Nothing in Lean tells how many samples there
are or which, and no rule inspects one. DESIGN CHOICE (log 9), safe: an OPEN type of plain data is given by its codes. -/
structure Sample where
  code : Nat
  admitted : code = 0 ∨ Config.sampleCode code = true
deriving DecidableEq, Repr

/-- The link configuration of 10_state.md R30, also the argument of `Construct` (70_reset_and_hazards.md R311). -/
structure LinkConfig where
  keyLen : Nat
  maxInputLen : Nat
  maxAdLen : Nat
  nonceLen : Nat
deriving DecidableEq, Repr

/-- The two values of `TERM_FAIL_ON` (00_scope.md R13, 90_conflicts.md C2): which outcome of the terminator
comparison fails. `equal` is the spec's `MATCH`, a word that Lean keeps for itself. -/
inductive TermFailOn where
  | mismatch
  | equal
deriving DecidableEq, Repr

/-- The eleven meanings `STATUS_NAME` may give (60_exceptions.md R273). -/
inductive StatusMeaning where
  | invalidCommand
  | badChecksum
  | timeout
  | invalidArgumentLength
  | unexpectedFrameByte
  | bufferInteractionError
  | keyNotSet
  | inputNotSet
  | bufferOverflow
  | invalidNonce
  | operationError
deriving DecidableEq, Repr

/-- The OPEN parameters that rules read and that are not the link configuration (00_scope.md R13), held as plain data
so that every value can be evaluated (log 3). `maxResultLen` is `none` for `UNBOUNDED`; `statusNames` lists the pairs of
`STATUS_NAME`. -/
structure Params where
  maxResultLen : Option Nat
  termFailOn : TermFailOn
  statusNames : List (Byte × StatusMeaning)
deriving DecidableEq, Repr

/-- The host request record `HREQ` (10_state.md R44): the 2-bit operation code and the byte sequences. -/
structure HostRequest where
  op : BitVec 2
  args : HostArgs
deriving DecidableEq, Repr

/-- What the host can do to the block (60_exceptions.md R300): construct it or present a request. -/
inductive HostInput where
  | construct (cfg : LinkConfig)
  | request (r : HostRequest)
deriving DecidableEq, Repr

namespace Config

/-- `KEY_LEN`, OPEN (00_scope.md R13). -/
opaque keyLen : Nat
/-- `MAX_INPUT_LEN`, OPEN (00_scope.md R13). -/
opaque maxInputLen : Nat
/-- `MAX_AD_LEN`, OPEN (00_scope.md R13). -/
opaque maxAdLen : Nat
/-- `NONCE_LEN`, OPEN (00_scope.md R13). -/
opaque nonceLen : Nat
/-- `MAX_RESULT_LEN`, OPEN: a natural number or `UNBOUNDED` (00_scope.md R13, 92_eei_decisions.md D25). -/
opaque maxResultLen : Option Nat
/-- The pairs of `STATUS_NAME`, OPEN (00_scope.md R13, 92_eei_decisions.md D26). -/
opaque statusNames : List (Byte × StatusMeaning)
/-- `T_ACK`, OPEN and read by no rule (00_scope.md R13, 60_exceptions.md R287; log 13). -/
opaque timeoutAck : Nat
/-- `T_CMD`, OPEN and read by no rule (00_scope.md R13, 60_exceptions.md R287; log 13). -/
opaque timeoutCmd : Nat

/-- Free draw: what the link answers to a read, bytes or `EMPTY` (60_exceptions.md R296; log 2). -/
opaque linkDraw : Nat → Option Bytes
/-- Free draw: whether a capture timed out (60_exceptions.md R297; log 2). -/
opaque captureDraw : Nat → Bool
/-- Free draw: the trace the instrument holds (60_exceptions.md R297; log 2). -/
opaque traceDraw : Nat → List Sample
/-- Free draw: byte `i` of an entropy answer (60_exceptions.md R299; log 2). -/
opaque entropyDraw : Nat → Nat → Byte
/-- Free draw: what the host presents, if anything (60_exceptions.md R300; log 2). -/
opaque hostDraw : Nat → Option HostInput

end Config

end Sys2Proof
end

