-- ==== Sys2Proof/Machine/State.lean ====
section
/-! DEFINITION. The architectural state of LWC-SPE (spec/10_state.md R30 to R39, R48), the model's own fields (the event
history of spec/20_memory.md R92, the OPEN parameters and the external agents' scripts), and the state after reset
(spec/70_reset_and_hazards.md R310). Reserved encodings are not representable (spec/10_state.md R43; log 14). -/

namespace Sys2Proof.Machine

/-! ### Field encodings -/

/-- `SEQ.STATE` (10_state.md R32): 0 `IDLE`, 1 `RUN`. -/
inductive SeqState where
  | idle
  | run
deriving DecidableEq, Repr

/-- `SEQ.OP` (30_encoding.md R110): 0 `ENCRYPT`, 1 `DECRYPT`, 2 `HASH`, 3 `STATUS`. -/
inductive HostOp where
  | encrypt
  | decrypt
  | hash
  | status
deriving DecidableEq, Repr

/-- `SEG.PHASE` (10_state.md R42): codes 0 to 5. -/
inductive SegPhase where
  | check
  | sendClear
  | ackClear
  | sendAppend
  | ackAppend
  | done
deriving DecidableEq, Repr

/-- `SEG.ROLE` (10_state.md R42): codes 0 to 2. -/
inductive Role where
  | input
  | key
  | ad
deriving DecidableEq, Repr

/-- `ACC.STATE` (10_state.md R35): codes 0 to 3. -/
inductive AccState where
  | awaiting
  | accumulating
  | done
  | failed
deriving DecidableEq, Repr

/-- `ERR.CLASS` (10_state.md R40): codes 0 to 10. -/
inductive ErrClass where
  | none
  | protocol
  | configLength
  | localTimeout
  | unexpectedTag
  | resultLength
  | instrumentTimeout
  | malformedFrame
  | payloadTooLong
  | resultOverflow
  | errorFrameZero
deriving DecidableEq, Repr

/-- `ERR.STAGE` (10_state.md R41): codes 0 to 9. -/
inductive Stage where
  | none
  | setInput
  | setKey
  | setAd
  | perform
  | fetchResult
  | finalAck
  | statusQuery
  | statusAck
  | capture
deriving DecidableEq, Repr

/-- The timeout class of a link read (40_frame_codec.md R145): `ACK` for acknowledgments, `CMD` for the other reads. -/
inductive TimeoutClass where
  | ack
  | cmd
deriving DecidableEq, Repr

/-! ### Registers -/

/-- `BIND`, the binding register (10_state.md R31). -/
structure Binding where
  linkBound : Bool
  flashed : Bool
deriving DecidableEq, Repr

/-- `SEQ`, the Sequencer register (10_state.md R32). `pc` is the program counter (R47). -/
structure Sequencer where
  state : SeqState
  op : HostOp
  pc : BitVec 4
deriving DecidableEq, Repr

/-- `SES`, the operation-session registers (10_state.md R33). -/
structure Session where
  input : Bytes
  key : Bytes
  ad : Bytes
  nonce : Bytes
deriving DecidableEq, Repr

/-- `SEG`, the Segmenter register (10_state.md R34). -/
structure Segmenter where
  phase : SegPhase
  role : Role
  off : Nat
deriving DecidableEq, Repr

/-- `ACC`, the Accumulator register (10_state.md R35). -/
structure Accumulator where
  state : AccState
  result : Bytes
  nchunk : Nat
deriving DecidableEq, Repr

/-- `RXF`, the receive-frame holding register (10_state.md R36). -/
structure RxFrame where
  filled : Bool
  cmd : Byte
  declLen : Byte
  payload : Bytes
  rawLen : Nat
deriving DecidableEq, Repr

/-- `STAT`, the target-status flag register (10_state.md R37). -/
structure TargetStatus where
  keyIsDone : Bool
  inputMinLen : Bool
  valid : Bool
deriving DecidableEq, Repr

/-- `ERR`, the error register (10_state.md R38). -/
structure ErrorReg where
  valid : Bool
  cls : ErrClass
  stage : Stage
  code : Byte
  known : Bool
deriving DecidableEq, Repr

/-- `OUT`, the output trace register (10_state.md R39). -/
structure OutputReg where
  trace : List Sample
  traceValid : Bool
deriving DecidableEq, Repr

/-! ### Interface records and events -/

/-- The host response record `HRSP` (10_state.md R45). -/
structure HostResponse where
  ok : Bool
  result : Bytes
  trace : List Sample
  traceValid : Bool
  keyIsDone : Bool
  inputMinLen : Bool
  flagsValid : Bool
  err : ErrorReg
deriving DecidableEq, Repr

/-- One interaction with an external agent (00_scope.md R19) as the event history records it (20_memory.md R92): the
primitive, its arguments and its answer. -/
inductive Event where
  /-- `LinkSend(cmd, scmd, payload)`. -/
  | send (cmd scmd : Byte) (payload : Bytes)
  /-- `LinkRead(tc)` with its answer, `none` for `EMPTY`. -/
  | read (tc : TimeoutClass) (answer : Option Bytes)
  /-- `LinkFlush()`. -/
  | flush
  /-- `InstArm()`. -/
  | arm
  /-- `InstCapture()` with its answer. -/
  | capture (timedOut : Bool)
  /-- `InstTrace()` with its answer. -/
  | trace (samples : List Sample)
  /-- `Entropy(n)` with its answer. -/
  | entropy (n : Nat) (answer : Bytes)
  /-- `HostRespond(r)`. -/
  | respond (r : HostResponse)
  /-- `Flash()` (70_reset_and_hazards.md R311). -/
  | flash
deriving DecidableEq, Repr

/-- The external agents as the block meets them. `held` is the requests presented in `RUN` and not yet accepted
(43_sequencer.md R264); the other lists are the answers the agents will give next, oldest first, where `none` stands for
nothing presented by the host and for `EMPTY` from the link. Where a list has ended, the answer is a free draw of Config
numbered by `draws` (92_eei_decisions.md D30; log 2). No field is the block's. -/
structure Environment where
  held : List HostRequest
  host : List (Option HostInput)
  link : List (Option Bytes)
  capture : List Bool
  trace : List (List Sample)
  entropy : Bytes
  draws : Nat
deriving DecidableEq, Repr

/-- The whole state: the registers of 10_state.md R30 to R39, then the model's own fields `par`, `env` and `hist`. -/
structure State where
  /-- `CFG`, the link configuration register (10_state.md R30). -/
  cfg : LinkConfig
  bind : Binding
  seq : Sequencer
  ses : Session
  seg : Segmenter
  acc : Accumulator
  rxf : RxFrame
  stat : TargetStatus
  err : ErrorReg
  out : OutputReg
  /-- The OPEN parameters of 00_scope.md R13 that rules read; no step writes them (log 3). -/
  par : Params
  /-- The external agents (log 2). -/
  env : Environment
  /-- The event history, oldest first (20_memory.md R92; log 1). -/
  hist : List Event
deriving DecidableEq, Repr

/-- Why the machine stops with a fault. The spec's failures are no faults: they are next states (60_exceptions.md R301). -/
inductive Fault where
  /-- Raised by the step in `RUN` when `SEQ.PC` names no macro-step of the operation's program, which no rule brings about
  (43_sequencer.md R232; log 7). Safe: the model makes no step where the spec gives none. -/
  | noMacroStep
  /-- Raised by the step in `RUN` in a DRAIN macro-step with `ACC.STATE = FAILED`, where no read is taken
  (42_accumulator.md R208, R209; log 7). Safe: as above. -/
  | drainFailed
deriving DecidableEq, Repr

/-- Why the machine refuses an instruction. -/
inductive Refusal where
  /-- The instruction has no meaning yet; raised by its arm of `exec`. Safe. No arm raises it. -/
  | notModelled (mnemonic : String)
deriving DecidableEq, Repr

/-! ### Reset -/

/-- `SES` at reset (10_state.md R33). -/
def Session.reset : Session := { input := [], key := [], ad := [], nonce := [] }
/-- `SEG` at reset (10_state.md R34). -/
def Segmenter.reset : Segmenter := { phase := .check, role := .input, off := 0 }
/-- `ACC` at reset (10_state.md R35). -/
def Accumulator.reset : Accumulator := { state := .awaiting, result := [], nchunk := 0 }
/-- `RXF` at reset (10_state.md R36). -/
def RxFrame.reset : RxFrame := { filled := false, cmd := 0, declLen := 0, payload := [], rawLen := 0 }
/-- `STAT` at reset (10_state.md R37). -/
def TargetStatus.reset : TargetStatus := { keyIsDone := false, inputMinLen := false, valid := false }
/-- `ERR` at reset (10_state.md R38). -/
def ErrorReg.reset : ErrorReg := { valid := false, cls := .none, stage := .none, code := 0, known := false }
/-- `OUT` at reset (10_state.md R39). -/
def OutputReg.reset : OutputReg := { trace := [], traceValid := false }
/-- `SEQ` at reset (10_state.md R32). -/
def Sequencer.reset : Sequencer := { state := .idle, op := .encrypt, pc := 0 }

/-- The machine right after reset (70_reset_and_hazards.md R310). `CFG` holds the construction arguments, which are OPEN
(log 3); `BIND` is 0 until `Construct` sets it (R311); nothing is scripted and nothing has happened (log 2, log 11). -/
def State.reset : State :=
  { cfg := { keyLen := Config.keyLen, maxInputLen := Config.maxInputLen, maxAdLen := Config.maxAdLen,
             nonceLen := Config.nonceLen }
    bind := { linkBound := false, flashed := false }
    seq := .reset
    ses := .reset
    seg := .reset
    acc := .reset
    rxf := .reset
    stat := .reset
    err := .reset
    out := .reset
    par := { maxResultLen := Config.maxResultLen, termFailOn := .mismatch, statusNames := Config.statusNames }
    env := { held := [], host := [], link := [], capture := [], trace := [], entropy := [], draws := 0 }
    hist := [] }

end Sys2Proof.Machine
end

