-- ==== Sys2Proof/Machine/Codes.lean ====
section
/-! DEFINITION. The numeric codes of the enumerated register fields (spec/10_state.md R32, R35, R40, R41, R42,
spec/30_encoding.md R110). The registers hold the names; no reserved code is the code of any name (R43). -/

namespace Sys2Proof.Machine

/-- The code of `SEQ.STATE` (10_state.md R32). -/
def SeqState.code : SeqState → BitVec 1
  | .idle => 0
  | .run => 1

/-- The code of `SEQ.OP` (30_encoding.md R110). -/
def HostOp.code : HostOp → BitVec 2
  | .encrypt => 0
  | .decrypt => 1
  | .hash => 2
  | .status => 3

/-- The code of `SEG.PHASE` (10_state.md R42). -/
def SegPhase.code : SegPhase → BitVec 3
  | .check => 0
  | .sendClear => 1
  | .ackClear => 2
  | .sendAppend => 3
  | .ackAppend => 4
  | .done => 5

/-- The code of `SEG.ROLE` (10_state.md R42). -/
def Role.code : Role → BitVec 2
  | .input => 0
  | .key => 1
  | .ad => 2

/-- The code of `ACC.STATE` (10_state.md R35). -/
def AccState.code : AccState → BitVec 2
  | .awaiting => 0
  | .accumulating => 1
  | .done => 2
  | .failed => 3

/-- The code of `ERR.CLASS` (10_state.md R40). -/
def ErrClass.code : ErrClass → BitVec 4
  | .none => 0
  | .protocol => 1
  | .configLength => 2
  | .localTimeout => 3
  | .unexpectedTag => 4
  | .resultLength => 5
  | .instrumentTimeout => 6
  | .malformedFrame => 7
  | .payloadTooLong => 8
  | .resultOverflow => 9
  | .errorFrameZero => 10

/-- The code of `ERR.STAGE` (10_state.md R41). -/
def Stage.code : Stage → BitVec 4
  | .none => 0
  | .setInput => 1
  | .setKey => 2
  | .setAd => 3
  | .perform => 4
  | .fetchResult => 5
  | .finalAck => 6
  | .statusQuery => 7
  | .statusAck => 8
  | .capture => 9

end Sys2Proof.Machine
end

