-- ==== Sys2Proof/Decode.lean ====
section
/-! DEFINITION. The encodings of spec/30_encoding.md: the three formats CMD, RSP and HOSTOP, their decoders and the
encoder, and the rows of spec/opcode_table.json. Decoding is total and rejects by name. -/

namespace Sys2Proof

/-! ### The literals of 00_scope.md R13 and R17 (taken as normative, log 15) -/

/-- `CHUNK_SIZE`: maximum payload bytes of one append command (00_scope.md R13). -/
def chunkSize : Nat := 100
/-- `FRAME_MIN`: minimum raw length of a filled inbound frame (00_scope.md R13). -/
def frameMin : Nat := 4
/-- `TERM_MOD`: modulus of the terminator's chunk count (00_scope.md R13). -/
def termMod : Nat := 256
/-- `PAYLOAD_LO`: index of the first payload byte of a raw inbound frame (00_scope.md R13). -/
def payloadLo : Nat := 3
/-- `TRAILER_LEN`: trailing checksum/terminator bytes of a raw inbound frame (00_scope.md R13). -/
def trailerLen : Nat := 2
/-- `MAX_CMD_PAYLOAD`: largest payload the encoder accepts (00_scope.md R13). -/
def maxCmdPayload : Nat := 255

/-- `'i'`, set input (00_scope.md R17). -/
def tagI : Byte := 0x69
/-- `'k'`, set key (00_scope.md R17). -/
def tagK : Byte := 0x6B
/-- `'a'`, set associated data (00_scope.md R17). -/
def tagA : Byte := 0x61
/-- `'p'`, perform (00_scope.md R17). -/
def tagP : Byte := 0x70
/-- `'h'`, hash (00_scope.md R17). -/
def tagH : Byte := 0x68
/-- `'s'`, status (00_scope.md R17). -/
def tagS : Byte := 0x73
/-- `'r'`, inbound result chunk (00_scope.md R17). -/
def tagR : Byte := 0x72
/-- `'e'`, inbound error or acknowledgment (00_scope.md R17). -/
def tagE : Byte := 0x65
/-- `'t'`, inbound terminator (00_scope.md R17). -/
def tagT : Byte := 0x74

/-- Sub-command 0x01: clear a buffer, or encrypt (30_encoding.md R103). -/
def scmdOne : Byte := 0x01
/-- Sub-command 0x00: append a chunk, or decrypt, or none (30_encoding.md R103). -/
def scmdZero : Byte := 0x00

/-- `s[i ..< j]`, the half-open slice (00_scope.md R16). -/
def slice (s : Bytes) (i j : Nat) : Bytes := (s.take j).drop i

/-! ### Encoded forms -/

/-- An encoded member of the command set: the logical frame of an outbound command (30_encoding.md R100), a raw inbound
frame (R104), or a host operation code with its operands (R110, 10_state.md R44). -/
inductive Encoded where
  | cmd (frame : Bytes)
  | rsp (raw : Bytes)
  | hostop (op : BitVec 2) (a : HostArgs)
deriving DecidableEq, Repr

/-- Why a logical frame is no outbound command. -/
inductive CmdError where
  /-- Fewer than three bytes: a logical frame has `cmd`, `scmd` and `len` (30_encoding.md R100). -/
  | truncated
  /-- The length byte is not the payload's length (30_encoding.md R100). -/
  | lengthMismatch
  /-- A `(cmd, scmd)` pair outside the command map (30_encoding.md R107). -/
  | unknownCommand (cmd scmd : Byte)
  /-- A payload on a command whose payload is `[]` (30_encoding.md R103). -/
  | payloadNotAllowed
deriving DecidableEq, Repr

/-- Why a raw read is none of the three inbound classes. Neither is an error of the block's decoder
(40_frame_codec.md R142): each read site decides. -/
inductive RspError where
  /-- Shorter than `FRAME_MIN` (40_frame_codec.md R142); `n` is the raw length. -/
  | unfilled (n : Nat)
  /-- A filled frame with another tag (30_encoding.md R106). -/
  | otherTag (tag : Byte) (f : Frame)
deriving DecidableEq, Repr

/-- Why an encoded form is no instruction. -/
inductive DecodeError where
  | cmd (e : CmdError)
  | rsp (e : RspError)
deriving DecidableEq, Repr

/-! ### The encoder -/

/-- The logical frame `[cmd, scmd, len(payload)] ++ payload` (30_encoding.md R100). -/
def logicalFrame (cmd scmd : Byte) (payload : Bytes) : Bytes :=
  cmd :: scmd :: BitVec.ofNat 8 payload.length :: payload

/-- An instance of the OPEN parameter `WIRE_WRAP` with what 40_frame_codec.md R141 asks of it: a function of the logical
frame alone, from whose value the frame is recoverable. Recovery is asked for the logical frames of 30_encoding.md R100 and
R101 only, so the wire may leave out what such a frame repeats, its length byte for one; on other byte sequences `wrap` is
anything. No rule of the block reads wire bytes (R102), so a statement takes an instance as an argument (log 10). -/
structure WireWrap where
  wrap : Bytes → Bytes
  unwrap : Bytes → Bytes
  unwrap_wrap : ∀ cmd scmd payload, payload.length ≤ maxCmdPayload →
    unwrap (wrap (logicalFrame cmd scmd payload)) = logicalFrame cmd scmd payload

/-- The raw frame with a tag and the other fields of 30_encoding.md R104. -/
def rawFrame (tag : Byte) (f : Frame) : Bytes :=
  f.start :: tag :: f.declLen :: (f.payload ++ f.trailer)

/-- The encoding of an instruction, from the tables of 30_encoding.md R103, R105 and R110. -/
def encode : Instr → Encoded
  | .setiClr => .cmd (logicalFrame tagI scmdOne [])
  | .setiApp c => .cmd (logicalFrame tagI scmdZero c)
  | .setkClr => .cmd (logicalFrame tagK scmdOne [])
  | .setkApp c => .cmd (logicalFrame tagK scmdZero c)
  | .setaClr => .cmd (logicalFrame tagA scmdOne [])
  | .setaApp c => .cmd (logicalFrame tagA scmdZero c)
  | .perfEnc n => .cmd (logicalFrame tagP scmdOne n)
  | .perfDec n => .cmd (logicalFrame tagP scmdZero n)
  | .hash => .cmd (logicalFrame tagH scmdZero [])
  | .status => .cmd (logicalFrame tagS scmdZero [])
  | .rspR f => .rsp (rawFrame tagR f)
  | .rspE f => .rsp (rawFrame tagE f)
  | .rspT f => .rsp (rawFrame tagT f)
  | .hostEncrypt a => .hostop 0 a
  | .hostDecrypt a => .hostop 1 a
  | .hostHash a => .hostop 2 a
  | .hostStatus a => .hostop 3 a

/-! ### The decoders -/

/-- An instruction without a payload operand: any payload byte is rejected (30_encoding.md R103). -/
def withoutPayload (i : Instr) (payload : Bytes) : Except CmdError Instr :=
  if payload = [] then .ok i else .error .payloadNotAllowed

/-- The command map of 30_encoding.md R103; every other pair is rejected by name (R107). -/
def selectCommand (cmd scmd : Byte) (payload : Bytes) : Except CmdError Instr :=
  if cmd = tagI ∧ scmd = scmdOne then withoutPayload .setiClr payload
  else if cmd = tagI ∧ scmd = scmdZero then .ok (.setiApp payload)
  else if cmd = tagK ∧ scmd = scmdOne then withoutPayload .setkClr payload
  else if cmd = tagK ∧ scmd = scmdZero then .ok (.setkApp payload)
  else if cmd = tagA ∧ scmd = scmdOne then withoutPayload .setaClr payload
  else if cmd = tagA ∧ scmd = scmdZero then .ok (.setaApp payload)
  else if cmd = tagP ∧ scmd = scmdOne then .ok (.perfEnc payload)
  else if cmd = tagP ∧ scmd = scmdZero then .ok (.perfDec payload)
  else if cmd = tagH ∧ scmd = scmdZero then withoutPayload .hash payload
  else if cmd = tagS ∧ scmd = scmdZero then withoutPayload .status payload
  else .error (.unknownCommand cmd scmd)

/-- Read a logical frame (30_encoding.md R100, R109). -/
def decodeCmd : Bytes → Except CmdError Instr
  | cmd :: scmd :: len :: payload =>
    if payload.length = len.toNat then selectCommand cmd scmd payload else .error .lengthMismatch
  | _ => .error .truncated

/-- The positional decode of a raw read of 40_frame_codec.md R142: `none` is the unfilled sentinel, otherwise the tag and
the other fields. The payload is `raw[3 ..< n-2]`; the declared length and the trailer are compared with nothing (R143). -/
def splitFrame (raw : Bytes) : Option (Byte × Frame) :=
  match raw with
  | start :: tag :: declLen :: _ =>
    if raw.length < frameMin then none
    else some (tag,
      { start := start, declLen := declLen,
        payload := slice raw payloadLo (raw.length - trailerLen),
        trailer := raw.drop (max payloadLo (raw.length - trailerLen)) })
  | _ => none

/-- Read a raw inbound frame (30_encoding.md R104, R105). -/
def decodeRsp (raw : Bytes) : Except RspError Instr :=
  match splitFrame raw with
  | none => .error (.unfilled raw.length)
  | some (tag, f) =>
    if tag = tagR then .ok (.rspR f)
    else if tag = tagE then .ok (.rspE f)
    else if tag = tagT then .ok (.rspT f)
    else .error (.otherTag tag f)

/-- Read a host operation (30_encoding.md R110): all four codes are defined. -/
def decodeHost (op : BitVec 2) (a : HostArgs) : Instr :=
  if op = 0 then .hostEncrypt a
  else if op = 1 then .hostDecrypt a
  else if op = 2 then .hostHash a
  else .hostStatus a

/-- The decoder over all three formats. -/
def decode : Encoded → Except DecodeError Instr
  | .cmd frame =>
    match decodeCmd frame with
    | .ok i => .ok i
    | .error e => .error (.cmd e)
  | .rsp raw =>
    match decodeRsp raw with
    | .ok i => .ok i
    | .error e => .error (.rsp e)
  | .hostop op a => .ok (decodeHost op a)

/-! ### The opcode table -/

/-- The `format` column of spec/opcode_table.json. -/
inductive Format where
  | cmd
  | rsp
  | hostop
deriving DecidableEq, Repr

/-- A row of spec/opcode_table.json: its mnemonic, format, match and mask. -/
structure OpcodeRow where
  mnemonic : String
  format : Format
  value : Nat
  mask : Nat
deriving DecidableEq, Repr

/-- The seventeen rows of spec/opcode_table.json, in its order. -/
def opcodeTable : List OpcodeRow :=
  [ ⟨"SETI.CLR", .cmd, 0x6901, 0xFFFF⟩, ⟨"SETI.APP", .cmd, 0x6900, 0xFFFF⟩,
    ⟨"SETK.CLR", .cmd, 0x6B01, 0xFFFF⟩, ⟨"SETK.APP", .cmd, 0x6B00, 0xFFFF⟩,
    ⟨"SETA.CLR", .cmd, 0x6101, 0xFFFF⟩, ⟨"SETA.APP", .cmd, 0x6100, 0xFFFF⟩,
    ⟨"PERF.ENC", .cmd, 0x7001, 0xFFFF⟩, ⟨"PERF.DEC", .cmd, 0x7000, 0xFFFF⟩,
    ⟨"HASH", .cmd, 0x6800, 0xFFFF⟩, ⟨"STATUS", .cmd, 0x7300, 0xFFFF⟩,
    ⟨"RSP.R", .rsp, 0x72, 0xFF⟩, ⟨"RSP.E", .rsp, 0x65, 0xFF⟩, ⟨"RSP.T", .rsp, 0x74, 0xFF⟩,
    ⟨"HOST.ENCRYPT", .hostop, 0x0, 0x3⟩, ⟨"HOST.DECRYPT", .hostop, 0x1, 0x3⟩,
    ⟨"HOST.HASH", .hostop, 0x2, 0x3⟩, ⟨"HOST.STATUS", .hostop, 0x3, 0x3⟩ ]

/-- The format and opcode bits of an encoded form, as the table numbers them: `cmd` in bits 15..8 and `scmd` in bits 7..0,
the tag, or the operation code. -/
def Encoded.opcode : Encoded → Format × Nat
  | .cmd frame => (.cmd, (frame.getD 0 0).toNat * 256 + (frame.getD 1 0).toNat)
  | .rsp raw => (.rsp, (raw.getD 1 0).toNat)
  | .hostop op _ => (.hostop, op.toNat)

/-- Whether opcode bits of a format match a row. -/
def OpcodeRow.covers (row : OpcodeRow) (op : Format × Nat) : Bool :=
  row.format = op.1 && op.2 &&& row.mask = row.value

/-- The mnemonics of the rows that opcode bits match. -/
def mnemonicsOf (op : Format × Nat) : List String := (opcodeTable.filter (·.covers op)).map (·.mnemonic)

/-! ### A table word as an instruction (log 11) -/

/-- A word of at most one byte: a tag with every other raw byte 0, or an operation code with empty operands. A raw frame
is laid out with seven bytes: start, tag, declared length, two payload bytes, two trailing bytes. -/
def byteWordForm (w : Nat) : Encoded :=
  if w < 4 then .hostop (BitVec.ofNat 2 w) ⟨[], [], [], []⟩
  else .rsp [0, BitVec.ofNat 8 w, 0, 0, 0, 0, 0]

/-- A word of two bytes: `cmd` in bits 15..8, `scmd` in bits 7..0, and a length byte of 0. -/
def pairWordForm (w : Nat) : Encoded :=
  .cmd [BitVec.ofNat 8 (w / 256), BitVec.ofNat 8 w, 0]

/-- The instruction the decoder reads from a word of spec/opcode_table.json, every further bit 0. -/
def decodeTableWord (nbits w : Nat) : Option Instr :=
  if nbits ≤ 8 then
    if w < 256 then (decode (byteWordForm w)).toOption else none
  else if w < 65536 then (decode (pairWordForm w)).toOption else none

end Sys2Proof
end

