-- ==== Sys2Proof/Machine/Program.lean ====
section
/-! DEFINITION. The operation programs that `SEQ.PC` indexes (spec/43_sequencer.md R231) and the place a link read stands in. -/

namespace Sys2Proof.Machine

/-- The macro-steps of 43_sequencer.md R231. PERFORM is one constructor per command it sends. -/
inductive MacroStep where
  | flush
  | upload (role : Role)
  | nonce
  | arm
  | performEnc
  | performDec
  | performHash
  | drain
  | ack (stage : Stage)
  | capture
  | trace
  | sendStatus
  | readStatus
  | complete
deriving DecidableEq, Repr

/-- The fixed lists of 43_sequencer.md R231. DECRYPT neither arms nor captures (93_implementation_defined.md O1). -/
def program : HostOp → List MacroStep
  | .encrypt => [.flush, .upload .input, .upload .key, .upload .ad, .nonce, .arm, .performEnc, .drain, .ack .finalAck,
      .capture, .trace, .complete]
  | .decrypt => [.flush, .upload .input, .upload .key, .upload .ad, .nonce, .performDec, .drain, .ack .finalAck, .complete]
  | .hash => [.flush, .upload .input, .arm, .performHash, .drain, .ack .finalAck, .capture, .trace, .complete]
  | .status => [.flush, .sendStatus, .readStatus, .ack .statusAck, .complete]

/-- The macro-step at `SEQ.PC` of the program of `SEQ.OP` (43_sequencer.md R231). -/
def State.macroStep? (s : State) : Option MacroStep := (program s.seq.op)[s.seq.pc.toNat]?

/-- The places the block reads the link (30_encoding.md R106): an acknowledgment with its stage, a drain, the status
response. -/
inductive ReadSite where
  | ack (stage : Stage)
  | drain
  | statusResponse
deriving DecidableEq, Repr

end Sys2Proof.Machine
end

