-- ==== Sys2Proof/Machine/Operands.lean ====
section
/-! DEFINITION. Every operand form: what each role uploads (spec/10_state.md R42), the chunk of an append
(spec/41_segmenter.md R174), the payload bytes of an inbound frame that a rule reads (spec/30_encoding.md R105), and the
stage and timeout class of each read site. -/

namespace Sys2Proof.Machine

/-- The stage charged for a role (10_state.md R42). -/
def Role.stage : Role → Stage
  | .input => .setInput
  | .key => .setKey
  | .ad => .setAd

/-- `buf`: the session buffer of a role (41_segmenter.md). -/
def Session.buffer (ses : Session) : Role → Bytes
  | .input => ses.input
  | .key => ses.key
  | .ad => ses.ad

/-- `max`: the role's maximum length (10_state.md R42). -/
def Role.maxLen (cfg : LinkConfig) : Role → Nat
  | .input => cfg.maxInputLen
  | .key => cfg.keyLen
  | .ad => cfg.maxAdLen

/-- The buffer being uploaded: that of `SEG.ROLE` (41_segmenter.md). -/
def State.uploadBuffer (s : State) : Bytes := s.ses.buffer s.seg.role

/-- The chunk of an append: `buf[off ..< off + n]` with `n = min(CHUNK_SIZE, len(buf) - off)` (41_segmenter.md R174). -/
def chunkAt (buf : Bytes) (off : Nat) : Bytes := slice buf off (off + min chunkSize (buf.length - off))

/-- The chunk the next append carries (41_segmenter.md R174). -/
def State.nextChunk (s : State) : Bytes := chunkAt s.uploadBuffer s.seg.off

/-- The clear command of a role (41_segmenter.md R175). -/
def clearCommand : Role → Instr
  | .input => .setiClr
  | .key => .setkClr
  | .ad => .setaClr

/-- The append command of a role (41_segmenter.md R176). -/
def appendCommand : Role → Bytes → Instr
  | .input, chunk => .setiApp chunk
  | .key, chunk => .setkApp chunk
  | .ad, chunk => .setaApp chunk

/-- The operation a host code selects (30_encoding.md R110). -/
def hostRequestInstr (r : HostRequest) : Instr := decodeHost r.op r.args

/-- `payload[0]`: the status byte of an 'e' frame and the count of a 't' frame (30_encoding.md R105). -/
def firstOperand (f : Frame) : Option Byte := f.payload[0]?

/-- `payload[0]` and `payload[1]`: the two flag bytes of a status response (43_sequencer.md R251). -/
def flagOperands (f : Frame) : Option (Byte × Byte) :=
  match f.payload with
  | a :: b :: _ => some (a, b)
  | _ => none

/-- The stage charged for a failure at a read site (40_frame_codec.md R146, 42_accumulator.md R201, 43_sequencer.md R251). -/
def ReadSite.stage : ReadSite → Stage
  | .ack stage => stage
  | .drain => .fetchResult
  | .statusResponse => .statusQuery

/-- The timeout class of a read site (40_frame_codec.md R145, 92_eei_decisions.md D15). -/
def ReadSite.timeoutClass : ReadSite → TimeoutClass
  | .ack _ => .ack
  | .drain => .cmd
  | .statusResponse => .cmd

/-- The read site of a state, if its next step is a link read: the two acknowledgment phases of an upload
(41_segmenter.md R173, R177), a drain that goes on (42_accumulator.md R201), an ACK macro-step (43_sequencer.md R247) and
READ_STATUS (R251). -/
def State.readSite? (s : State) : Option ReadSite :=
  match s.seq.state with
  | .idle => none
  | .run =>
    match s.macroStep? with
    | some (.upload _) =>
      match s.seg.phase with
      | .ackClear => some (.ack s.seg.role.stage)
      | .ackAppend => some (.ack s.seg.role.stage)
      | _ => none
    | some .drain =>
      match s.acc.state with
      | .awaiting => some .drain
      | .accumulating => some .drain
      | _ => none
    | some (.ack stage) => some (.ack stage)
    | some .readStatus => some .statusResponse
    | _ => none

end Sys2Proof.Machine
end

