-- ==== Sys2Proof/Machine/Flags.lean ====
section
/-! DEFINITION. Every flag computation: `ERR.KNOWN` (spec/60_exceptions.md R273), the status flags (spec/43_sequencer.md
R251), the terminator comparison (spec/42_accumulator.md R204) and the overflow check (R203). -/

namespace Sys2Proof.Machine

/-- `STATUS_NAME(b)`: the first pair for `b`, and nothing for 0x00, which has no error name (00_scope.md R13; log 12). -/
def statusName (par : Params) (b : Byte) : Option StatusMeaning :=
  if b = 0 then none else par.statusNames.lookup b

/-- `ERR.KNOWN`: the class is `PROTOCOL` and `STATUS_NAME(code)` is defined (60_exceptions.md R273, R280). -/
def errKnown (par : Params) (cls : ErrClass) (code : Byte) : Bool :=
  cls = .protocol && (statusName par code).isSome

/-- A flag byte is true when it is not 0x00 (43_sequencer.md R251, 92_eei_decisions.md D13). -/
def flagOf (b : Byte) : Bool := b ≠ 0

/-- `mismatch`: the chunk count modulo `TERM_MOD` is not the terminator's count (42_accumulator.md R204). -/
def countMismatch (nchunk : Nat) (expected : Byte) : Bool := nchunk % termMod ≠ expected.toNat

/-- `fails` of the terminator check under `TERM_FAIL_ON` (42_accumulator.md R204). -/
def terminatorFails (failOn : TermFailOn) (nchunk : Nat) (expected : Byte) : Bool :=
  match failOn with
  | .mismatch => countMismatch nchunk expected
  | .equal => !countMismatch nchunk expected

/-- Whether a payload would take the result past `MAX_RESULT_LEN`; never when `UNBOUNDED` (42_accumulator.md R202, R203). -/
def resultOverflows (maxLen : Option Nat) (have_ added : Nat) : Bool :=
  match maxLen with
  | none => false
  | some m => m < have_ + added

end Sys2Proof.Machine
end

