-- ==== Sys2Proof/Machine/Ops.lean ====
section
/-! DEFINITION. The named operations: events, advancing the Sequencer (spec/43_sequencer.md R232), the failure procedure
and the return from it (spec/60_exceptions.md R280, R283), sending a command (spec/40_frame_codec.md R140), latching a
frame (R145), passing an acknowledgment (R146), the answers of the external agents (spec/60_exceptions.md R296 to R300). -/

namespace Sys2Proof.Machine

/-- Add one interaction to the event history (20_memory.md R92). -/
def State.emit (e : Event) (s : State) : State := { s with hist := s.hist ++ [e] }

/-! ### Sequencing -/

/-- The entry action of a macro-step: UPLOAD (41_segmenter.md R170) and DRAIN (42_accumulator.md R200) have one, the others
none (43_sequencer.md R232). -/
def enterMacroStep (m : Option MacroStep) (s : State) : State :=
  match m with
  | some (.upload role) => { s with seg := { phase := .check, role := role, off := 0 } }
  | some .drain => { s with acc := { state := .awaiting, result := [], nchunk := 0 } }
  | _ => s

/-- `SEQ.PC <- SEQ.PC + 1` (43_sequencer.md R232). -/
def State.bumpPc (s : State) : State := { s with seq := { s.seq with pc := s.seq.pc + 1 } }

/-- Advance: move to the next macro-step and perform its entry action, in the same step (43_sequencer.md R232). -/
def State.advance (s : State) : State := enterMacroStep s.bumpPc.macroStep? s.bumpPc

/-! ### The failure procedure -/

/-- The failure's `HRSP`: no result, no trace, no flags, and a copy of `ERR` (60_exceptions.md R280, 10_state.md R45). -/
def failResponse (e : ErrorReg) : HostResponse :=
  { ok := false, result := [], trace := [], traceValid := false, keyIsDone := false, inputMinLen := false,
    flagsValid := false, err := e }

/-- What a failure records in `ERR` (60_exceptions.md R280). -/
def failRecord (par : Params) (cls : ErrClass) (stage : Stage) (code : Byte) : ErrorReg :=
  { valid := true, cls := cls, stage := stage, code := code, known := errKnown par cls code }

/-- `Fail(class, stage, code)`, the one way an operation ends early (60_exceptions.md R280): record the error, mark the
Accumulator `FAILED` if the current macro-step is DRAIN, respond to the host, return to `IDLE`. -/
def State.fail (cls : ErrClass) (stage : Stage) (code : Byte) (s : State) : State :=
  { s with
    err := failRecord s.par cls stage code
    acc := if s.macroStep? = some .drain then { s.acc with state := .failed } else s.acc
    hist := s.hist ++ [.respond (failResponse (failRecord s.par cls stage code))]
    seq := { s.seq with state := .idle } }

/-- Request acceptance (43_sequencer.md R233): latch the operands, clear the registers of the last operation, and with them
a failure's record (60_exceptions.md R283), and start the program. -/
def State.accept (op : HostOp) (a : HostArgs) (s : State) : State :=
  { s with
    seq := { state := .run, op := op, pc := 0 }
    ses := { input := a.input, key := a.key, ad := a.ad, nonce := a.nonce }
    err := { valid := false, cls := .none, stage := .none, code := 0, known := false }
    stat := { keyIsDone := false, inputMinLen := false, valid := false }
    out := { trace := [], traceValid := false }
    acc := { state := .awaiting, result := [], nchunk := 0 }
    seg := { phase := .check, role := .input, off := 0 } }

/-- A request presented in `RUN` is not accepted: it stays pending behind the requests already pending
(43_sequencer.md R264; log 8). -/
def State.hold (op : BitVec 2) (a : HostArgs) (s : State) : State :=
  { s with env := { s.env with held := s.env.held ++ [{ op := op, args := a }] } }

/-! ### Link operations -/

/-- ENCODE (40_frame_codec.md R140): refuse a payload longer than `MAX_CMD_PAYLOAD` before anything is sent, else send the
command and go on with `k`, the rest of the step. -/
def State.sendCommand (cmd scmd : Byte) (payload : Bytes) (stage : Stage) (k : State → State) (s : State) : State :=
  if maxCmdPayload < payload.length then s.fail .payloadTooLong stage 0
  else k (s.emit (.send cmd scmd payload))

/-- The register writes of READ for a filled frame (40_frame_codec.md R145). -/
def State.latchFrame (tag : Byte) (f : Frame) (s : State) : State :=
  { s with rxf := { filled := true, cmd := tag, declLen := f.declLen, payload := f.payload, rawLen := f.rawLen } }

/-- The register writes of READ for the unfilled sentinel with a raw length (40_frame_codec.md R145). -/
def State.latchUnfilled (rawLen : Nat) (s : State) : State :=
  { s with rxf := { filled := false, cmd := 0, declLen := 0, payload := [], rawLen := rawLen } }

/-- An unfilled read at a read site (40_frame_codec.md R147). -/
def State.unfilledRead (site : ReadSite) (rawLen : Nat) (s : State) : State :=
  (s.latchUnfilled rawLen).fail .localTimeout site.stage 0

/-- A filled frame whose tag the read site does not accept (30_encoding.md R106). -/
def State.rejectTag (site : ReadSite) (tag : Byte) (s : State) : State :=
  s.fail .unexpectedTag site.stage tag

/-! ### The Segmenter's register -/

/-- `SEG.PHASE <- phase`. -/
def State.setPhase (phase : SegPhase) (s : State) : State := { s with seg := { s.seg with phase := phase } }

/-- After an append of `n` bytes: `SEG.OFF <- SEG.OFF + n; SEG.PHASE <- ACK_APPEND` (41_segmenter.md R174). -/
def State.appended (n : Nat) (s : State) : State :=
  { s with seg := { s.seg with phase := .ackAppend, off := s.seg.off + n } }

/-- The phase after a passed acknowledgment: `ACK_CLEAR` looks at the length (41_segmenter.md R173), `ACK_APPEND` at what
has been sent (R177). -/
def State.phaseAfterAck (s : State) : SegPhase :=
  match s.seg.phase with
  | .ackClear => if s.uploadBuffer.length = 0 then .done else .sendAppend
  | .ackAppend => if s.seg.off = s.uploadBuffer.length then .done else .sendAppend
  | p => p

/-- What follows a passed acknowledgment in the same step: the upload's next phase (41_segmenter.md R173, R177), or the
advance of an ACK macro-step (43_sequencer.md R247). -/
def State.ackPassed (s : State) : State :=
  match s.macroStep? with
  | some (.upload _) => s.setPhase s.phaseAfterAck
  | _ => s.advance

/-! ### The answers of the external agents (log 2) -/

/-- What the link answers to the next read (60_exceptions.md R296). -/
def State.linkAnswer (s : State) : Option Bytes :=
  match s.env.link with
  | a :: _ => a
  | [] => Config.linkDraw s.env.draws

/-- The environment after a link read. -/
def Environment.afterLink (e : Environment) : Environment :=
  match e.link with
  | _ :: rest => { e with link := rest }
  | [] => { e with draws := e.draws + 1 }

/-- The state after a link read: the answer is consumed and the read is an event (20_memory.md R90, R92). -/
def State.afterRead (tc : TimeoutClass) (s : State) : State :=
  { s with env := s.env.afterLink, hist := s.hist ++ [.read tc s.linkAnswer] }

/-- What the host presents in `IDLE`, if anything: the oldest pending request, else what it presents next
(43_sequencer.md R264, 60_exceptions.md R300). -/
def State.hostAnswer (s : State) : Option HostInput :=
  match s.env.held with
  | r :: _ => some (.request r)
  | [] =>
    match s.env.host with
    | h :: _ => h
    | [] => Config.hostDraw s.env.draws

/-- The environment after the host was looked at in `IDLE`. -/
def Environment.afterHost (e : Environment) : Environment :=
  match e.held with
  | _ :: rest => { e with held := rest }
  | [] =>
    match e.host with
    | _ :: rest => { e with host := rest }
    | [] => { e with draws := e.draws + 1 }

/-- The state after the host was looked at in `IDLE`. -/
def State.afterHost (s : State) : State := { s with env := s.env.afterHost }

/-- Whether the next capture times out (60_exceptions.md R297). -/
def State.captureAnswer (s : State) : Bool :=
  match s.env.capture with
  | c :: _ => c
  | [] => Config.captureDraw s.env.draws

/-- The environment after a capture. -/
def Environment.afterCapture (e : Environment) : Environment :=
  match e.capture with
  | _ :: rest => { e with capture := rest }
  | [] => { e with draws := e.draws + 1 }

/-- The trace the instrument gives next (60_exceptions.md R297). -/
def State.traceAnswer (s : State) : List Sample :=
  match s.env.trace with
  | t :: _ => t
  | [] => Config.traceDraw s.env.draws

/-- The environment after a trace read. -/
def Environment.afterTrace (e : Environment) : Environment :=
  match e.trace with
  | _ :: rest => { e with trace := rest }
  | [] => { e with draws := e.draws + 1 }

/-- The answer of `Entropy(n)`: `n` bytes, scripted as far as the script goes and free beyond it (60_exceptions.md R299). -/
def State.entropyAnswer (n : Nat) (s : State) : Bytes :=
  (List.range n).map fun i => s.env.entropy.getD i (Config.entropyDraw s.env.draws i)

/-- The environment after an entropy draw of `n` bytes. -/
def Environment.afterEntropy (n : Nat) (e : Environment) : Environment :=
  { e with entropy := e.entropy.drop n, draws := e.draws + 1 }

end Sys2Proof.Machine
end

