-- ==== Sys2Proof/Machine/HostOps.lean ====
section
/-! DEFINITION. The meanings of the four host operations (spec/43_sequencer.md R260 to R263): in `IDLE` the request is
accepted and its program starts (R233), in `RUN` it stays pending (R264). The operation then runs by the steps of its
program (R231). -/

namespace Sys2Proof.Machine

/-- What the block does with a presented request (43_sequencer.md R233, R264). -/
def State.present (op : HostOp) (a : HostArgs) (s : State) : State :=
  match s.seq.state with
  | .idle => s.accept op a
  | .run => s.hold op.code a

/-- HOST.ENCRYPT (43_sequencer.md R260). -/
def execHostEncrypt (a : HostArgs) (s : State) : Host.Outcome State Fault Refusal := .next (s.present .encrypt a)

/-- HOST.DECRYPT (43_sequencer.md R261). -/
def execHostDecrypt (a : HostArgs) (s : State) : Host.Outcome State Fault Refusal := .next (s.present .decrypt a)

/-- HOST.HASH (43_sequencer.md R262). Key, AD and nonce are latched and never read (R233). -/
def execHostHash (a : HostArgs) (s : State) : Host.Outcome State Fault Refusal := .next (s.present .hash a)

/-- HOST.STATUS (43_sequencer.md R263). The operands are latched and never read (R233). -/
def execHostStatus (a : HostArgs) (s : State) : Host.Outcome State Fault Refusal := .next (s.present .status a)

end Sys2Proof.Machine
end

