-- ==== Sys2Proof/Machine/Perform.lean ====
section
/-! DEFINITION. The meanings of the commands a macro-step sends by itself: PERF.ENC, PERF.DEC, HASH and STATUS
(spec/43_sequencer.md R242, R243, R250). Each sends and then advances, which enters the next macro-step (R232). -/

namespace Sys2Proof.Machine

/-- PERF.ENC (43_sequencer.md R242). -/
def execPerfEnc (nonce : Bytes) (s : State) : Host.Outcome State Fault Refusal :=
  .next (s.sendCommand tagP scmdOne nonce .perform State.advance)

/-- PERF.DEC (43_sequencer.md R242). -/
def execPerfDec (nonce : Bytes) (s : State) : Host.Outcome State Fault Refusal :=
  .next (s.sendCommand tagP scmdZero nonce .perform State.advance)

/-- HASH (43_sequencer.md R243). -/
def execHash (s : State) : Host.Outcome State Fault Refusal :=
  .next (s.sendCommand tagH scmdZero [] .perform State.advance)

/-- STATUS (43_sequencer.md R250). -/
def execStatus (s : State) : Host.Outcome State Fault Refusal :=
  .next (s.sendCommand tagS scmdZero [] .statusQuery State.advance)

end Sys2Proof.Machine
end

