-- ==== Sys2Proof/Machine/Response.lean ====
section
/-! DEFINITION. The meanings of the inbound frame classes: what the read site of the state does with a filled frame
(spec/40_frame_codec.md R146, spec/42_accumulator.md R201 to R205, spec/43_sequencer.md R251). The frame is latched into
`RXF` first (spec/40_frame_codec.md R145). Where no read is in progress the block takes no frame (log 8). -/

namespace Sys2Proof.Machine

/-- A data chunk in a drain (42_accumulator.md R202, R203). -/
def State.acceptChunk (f : Frame) (s : State) : State :=
  if resultOverflows s.par.maxResultLen s.acc.result.length f.payload.length then s.fail .resultOverflow .fetchResult tagR
  else { s with
    acc := { state := .accumulating, result := s.acc.result ++ f.payload, nchunk := s.acc.nchunk + 1 } }

/-- The terminator of a drain (42_accumulator.md R204). -/
def State.acceptTerminator (f : Frame) (s : State) : State :=
  match firstOperand f with
  | none => s.fail .malformedFrame .fetchResult tagT
  | some expected =>
    if terminatorFails s.par.termFailOn s.acc.nchunk expected then s.fail .resultLength .fetchResult expected
    else { s with acc := { s.acc with state := .done } }

/-- An error frame where only data may come: always a failure (42_accumulator.md R205, 43_sequencer.md R251). -/
def State.errorFrame (stage : Stage) (f : Frame) (s : State) : State :=
  match firstOperand f with
  | none => s.fail .malformedFrame stage tagE
  | some status =>
    if status = 0 then s.fail .errorFrameZero stage 0 else s.fail .protocol stage status

/-- An 'e' frame as an acknowledgment (40_frame_codec.md R146). -/
def State.acknowledge (stage : Stage) (f : Frame) (s : State) : State :=
  match firstOperand f with
  | none => s.fail .malformedFrame stage tagE
  | some status => if status = 0 then s.ackPassed else s.fail .protocol stage status

/-- The data frame of a status response (43_sequencer.md R251). -/
def State.acceptFlags (f : Frame) (s : State) : State :=
  match flagOperands f with
  | none => s.fail .malformedFrame .statusQuery tagR
  | some (a, b) =>
    ({ s with stat := { s.stat with keyIsDone := flagOf a, inputMinLen := flagOf b } } : State).advance

/-- RSP.R (42_accumulator.md R202, 43_sequencer.md R251, 40_frame_codec.md R146). -/
def execRspR (f : Frame) (s : State) : Host.Outcome State Fault Refusal :=
  match s.readSite? with
  | none => .next s
  | some (.ack stage) => .next ((s.latchFrame tagR f).rejectTag (.ack stage) tagR)
  | some .drain => .next ((s.latchFrame tagR f).acceptChunk f)
  | some .statusResponse => .next ((s.latchFrame tagR f).acceptFlags f)

/-- RSP.E (40_frame_codec.md R146, 42_accumulator.md R205, 43_sequencer.md R251). -/
def execRspE (f : Frame) (s : State) : Host.Outcome State Fault Refusal :=
  match s.readSite? with
  | none => .next s
  | some (.ack stage) => .next ((s.latchFrame tagE f).acknowledge stage f)
  | some .drain => .next ((s.latchFrame tagE f).errorFrame .fetchResult f)
  | some .statusResponse => .next ((s.latchFrame tagE f).errorFrame .statusQuery f)

/-- RSP.T (42_accumulator.md R204, 43_sequencer.md R251, 40_frame_codec.md R146). -/
def execRspT (f : Frame) (s : State) : Host.Outcome State Fault Refusal :=
  match s.readSite? with
  | none => .next s
  | some (.ack stage) => .next ((s.latchFrame tagT f).rejectTag (.ack stage) tagT)
  | some .drain => .next ((s.latchFrame tagT f).acceptTerminator f)
  | some .statusResponse => .next ((s.latchFrame tagT f).rejectTag .statusResponse tagT)

end Sys2Proof.Machine
end

