-- ==== Sys2Proof/Machine/Upload.lean ====
section
/-! DEFINITION. The meanings of the six upload commands (spec/41_segmenter.md). Each is the whole block step that runs the
command: the send of R175 or R176 and the `SEG` write of its phase, R172 or R174 (log 17). -/

namespace Sys2Proof.Machine

/-- SEND_CLEAR for a tag: send the clear command, then `SEG.PHASE <- ACK_CLEAR` (41_segmenter.md R172, R175). -/
def State.sendClear (tag : Byte) (stage : Stage) (s : State) : State :=
  s.sendCommand tag scmdOne [] stage (State.setPhase .ackClear)

/-- SEND_APPEND for a tag: send the chunk, then `SEG.OFF` and `SEG.PHASE` (41_segmenter.md R174, R176). -/
def State.sendAppend (tag : Byte) (chunk : Bytes) (stage : Stage) (s : State) : State :=
  s.sendCommand tag scmdZero chunk stage (State.appended chunk.length)

/-- SETI.CLR (41_segmenter.md R175). -/
def execSetiClr (s : State) : Host.Outcome State Fault Refusal := .next (s.sendClear tagI .setInput)

/-- SETI.APP (41_segmenter.md R176). -/
def execSetiApp (chunk : Bytes) (s : State) : Host.Outcome State Fault Refusal := .next (s.sendAppend tagI chunk .setInput)

/-- SETK.CLR (41_segmenter.md R175). -/
def execSetkClr (s : State) : Host.Outcome State Fault Refusal := .next (s.sendClear tagK .setKey)

/-- SETK.APP (41_segmenter.md R176). -/
def execSetkApp (chunk : Bytes) (s : State) : Host.Outcome State Fault Refusal := .next (s.sendAppend tagK chunk .setKey)

/-- SETA.CLR (41_segmenter.md R175). -/
def execSetaClr (s : State) : Host.Outcome State Fault Refusal := .next (s.sendClear tagA .setAd)

/-- SETA.APP (41_segmenter.md R176). -/
def execSetaApp (chunk : Bytes) (s : State) : Host.Outcome State Fault Refusal := .next (s.sendAppend tagA chunk .setAd)

end Sys2Proof.Machine
end

