-- ==== Sys2Proof/Machine/Dispatch.lean ====
section
/-! DEFINITION. The meaning of every instruction: one arm per constructor of `Instr`. -/

namespace Sys2Proof.Machine

def exec (i : Instr) (s : State) : Host.Outcome State Fault Refusal :=
  match i with
  | .setiClr => Sys2Proof.Machine.execSetiClr s
  | .setiApp chunk => Sys2Proof.Machine.execSetiApp chunk s
  | .setkClr => Sys2Proof.Machine.execSetkClr s
  | .setkApp chunk => Sys2Proof.Machine.execSetkApp chunk s
  | .setaClr => Sys2Proof.Machine.execSetaClr s
  | .setaApp chunk => Sys2Proof.Machine.execSetaApp chunk s
  | .perfEnc nonce => Sys2Proof.Machine.execPerfEnc nonce s
  | .perfDec nonce => Sys2Proof.Machine.execPerfDec nonce s
  | .hash => Sys2Proof.Machine.execHash s
  | .status => Sys2Proof.Machine.execStatus s
  | .rspR f => Sys2Proof.Machine.execRspR f s
  | .rspE f => Sys2Proof.Machine.execRspE f s
  | .rspT f => Sys2Proof.Machine.execRspT f s
  | .hostEncrypt a => Sys2Proof.Machine.execHostEncrypt a s
  | .hostDecrypt a => Sys2Proof.Machine.execHostDecrypt a s
  | .hostHash a => Sys2Proof.Machine.execHostHash a s
  | .hostStatus a => Sys2Proof.Machine.execHostStatus a s

end Sys2Proof.Machine
end

