-- ==== Sys2Proof/Machine/Internal.lean ====
section
/-! DEFINITION. The steps of the block that run no member of the command set: construction (spec/70_reset_and_hazards.md
R311), the macro-steps without a command (spec/43_sequencer.md R234 to R246) and the Segmenter's CHECK (spec/41_segmenter.md
R171). -/

namespace Sys2Proof.Machine

/-- `Construct(cfg)` (70_reset_and_hazards.md R311): with a live link no register changes; else bind, flash, set `CFG` and
put every other register at its reset value (R310; log 6). -/
def State.construct (cfg : LinkConfig) (s : State) : State :=
  if s.bind.linkBound then s
  else
    { cfg := cfg
      bind := { linkBound := true, flashed := true }
      seq := .reset
      ses := .reset
      seg := .reset
      acc := .reset
      rxf := .reset
      stat := .reset
      err := .reset
      out := .reset
      par := s.par
      env := s.env
      hist := s.hist ++ [.flash] }

/-- FLUSH (43_sequencer.md R234). It constrains no later read (R234, 10_state.md R50), so the link's script stays. -/
def State.flushStep (s : State) : State := (s.emit .flush).advance

/-- The CHECK phase (41_segmenter.md R171). -/
def State.checkStep (s : State) : State :=
  if s.seg.role.maxLen s.cfg < s.uploadBuffer.length then s.fail .configLength s.seg.role.stage 0
  else s.setPhase .sendClear

/-- The entropy draw of NONCE: the answer becomes `SES.NONCE` (43_sequencer.md R240). -/
def State.drawNonce (n : Nat) (s : State) : State :=
  { s with
    ses := { s.ses with nonce := s.entropyAnswer n }
    env := s.env.afterEntropy n
    hist := s.hist ++ [.entropy n (s.entropyAnswer n)] }

/-- NONCE (43_sequencer.md R240): an empty nonce is drawn, a supplied one is kept whatever its length. -/
def State.nonceStep (s : State) : State :=
  if s.ses.nonce.length = 0 then (s.drawNonce s.cfg.nonceLen).advance else s.advance

/-- ARM (43_sequencer.md R241). -/
def State.armStep (s : State) : State := (s.emit .arm).advance

/-- The state after `InstCapture()`: the answer is consumed and the call is an event. -/
def State.afterCapture (s : State) : State :=
  { s with env := s.env.afterCapture, hist := s.hist ++ [.capture s.captureAnswer] }

/-- CAPTURE (43_sequencer.md R244). -/
def State.captureStep (s : State) : State :=
  if s.captureAnswer then s.afterCapture.fail .instrumentTimeout .capture 0 else s.afterCapture.advance

/-- The state after `InstTrace()`: the answer is consumed, is an event, and stands in `OUT`. -/
def State.afterTrace (s : State) : State :=
  { s with
    out := { trace := s.traceAnswer, traceValid := true }
    env := s.env.afterTrace
    hist := s.hist ++ [.trace s.traceAnswer] }

/-- TRACE (43_sequencer.md R245). -/
def State.traceStep (s : State) : State := s.afterTrace.advance

/-- The response of COMPLETE (43_sequencer.md R246); the fields a row does not list are 0 or empty (log 18). -/
def State.completeResponse (s : State) : HostResponse :=
  match s.seq.op with
  | .encrypt | .hash =>
    { ok := true, result := s.acc.result, trace := s.out.trace, traceValid := true, keyIsDone := false,
      inputMinLen := false, flagsValid := false, err := .reset }
  | .decrypt =>
    { ok := true, result := s.acc.result, trace := [], traceValid := false, keyIsDone := false, inputMinLen := false,
      flagsValid := false, err := .reset }
  | .status =>
    { ok := true, result := [], trace := [], traceValid := false, keyIsDone := s.stat.keyIsDone,
      inputMinLen := s.stat.inputMinLen, flagsValid := true, err := .reset }

/-- COMPLETE (43_sequencer.md R246). -/
def State.completeStep (s : State) : State :=
  { s with
    stat := if s.seq.op = .status then { s.stat with valid := true } else s.stat
    hist := s.hist ++ [.respond s.completeResponse]
    seq := { s.seq with state := .idle } }

end Sys2Proof.Machine
end

