-- ==== Sys2Proof/Machine/Fetch.lean ====
section
/-! DEFINITION. What the next step does (spec/43_sequencer.md R230): which member of the command set it runs, and on which
state, or which internal step it takes. The block fetches no instruction from memory (spec/20_memory.md R95): the program
selects its outbound commands, the link's answers bring the inbound frames and the host brings its operations. -/

namespace Sys2Proof.Machine

/-- What the next step does. -/
inductive Activity where
  /-- It runs an instruction on the state that has moved past what brought it (the answer or the request consumed). -/
  | runs (i : Instr) (s : State)
  /-- It takes an internal step, which ends in this state. -/
  | goes (s : State)
  /-- No rule gives a step (log 7). -/
  | stuck (f : Fault)
deriving DecidableEq, Repr

/-- READ at a read site (40_frame_codec.md R145): an answer that is one of the three inbound classes is run, an unfilled
read and a frame with another tag fail there (R147, 30_encoding.md R106). -/
def State.readActivity (site : ReadSite) (s : State) : Activity :=
  match s.linkAnswer with
  | none => .goes ((s.afterRead site.timeoutClass).unfilledRead site 0)
  | some raw =>
    match decodeRsp raw with
    | .ok i => .runs i (s.afterRead site.timeoutClass)
    | .error (.unfilled n) => .goes ((s.afterRead site.timeoutClass).unfilledRead site n)
    | .error (.otherTag tag f) => .goes (((s.afterRead site.timeoutClass).latchFrame tag f).rejectTag site tag)

/-- The Segmenter's phases (41_segmenter.md R171 to R178). -/
def State.uploadActivity (s : State) : Activity :=
  match s.seg.phase with
  | .check => .goes s.checkStep
  | .sendClear => .runs (clearCommand s.seg.role) s
  | .ackClear => s.readActivity (.ack s.seg.role.stage)
  | .sendAppend => .runs (appendCommand s.seg.role s.nextChunk) s
  | .ackAppend => s.readActivity (.ack s.seg.role.stage)
  | .done => .goes s.advance

/-- The Accumulator's states (42_accumulator.md R201, R207, R208). -/
def State.drainActivity (s : State) : Activity :=
  match s.acc.state with
  | .awaiting => s.readActivity .drain
  | .accumulating => s.readActivity .drain
  | .done => .goes s.advance
  | .failed => .stuck .drainFailed

/-- The macro-steps in `RUN` (43_sequencer.md R234 to R251). -/
def State.runActivity (s : State) : Activity :=
  match s.macroStep? with
  | none => .stuck .noMacroStep
  | some .flush => .goes s.flushStep
  | some (.upload _) => s.uploadActivity
  | some .nonce => .goes s.nonceStep
  | some .arm => .goes s.armStep
  | some .performEnc => .runs (.perfEnc s.ses.nonce) s
  | some .performDec => .runs (.perfDec s.ses.nonce) s
  | some .performHash => .runs .hash s
  | some .drain => s.drainActivity
  | some (.ack stage) => s.readActivity (.ack stage)
  | some .capture => .goes s.captureStep
  | some .trace => .goes s.traceStep
  | some .sendStatus => .runs .status s
  | some .readStatus => s.readActivity .statusResponse
  | some .complete => .goes s.completeStep

/-- In `IDLE` only the host can make the block act (43_sequencer.md R230, R233): by a request, by construction, or not at
all, and then no register changes (log 4). A request before construction is accepted as R233 writes it (log 5). -/
def State.idleActivity (s : State) : Activity :=
  match s.hostAnswer with
  | some (.request r) => .runs (hostRequestInstr r) s.afterHost
  | some (.construct cfg) => .goes (s.afterHost.construct cfg)
  | none => .goes s.afterHost

/-- What the next step does. -/
def State.activity (s : State) : Activity :=
  match s.seq.state with
  | .idle => s.idleActivity
  | .run => s.runActivity

/-! ### Placing an instruction where the next step runs it (log 11) -/

/-- `SEQ` in `RUN` at a macro-step of a program. -/
def State.atMacroStep (op : HostOp) (pc : BitVec 4) (s : State) : State :=
  { s with seq := { state := .run, op := op, pc := pc } }

/-- The state whose next step sends a role's clear command. -/
def State.placeClear (role : Role) (pc : BitVec 4) (s : State) : State :=
  { s.atMacroStep .encrypt pc with seg := { phase := .sendClear, role := role, off := 0 } }

/-- The state whose next step sends a role's append command with the buffer in `ses`. -/
def State.placeAppend (role : Role) (pc : BitVec 4) (ses : Session) (s : State) : State :=
  { s.atMacroStep .encrypt pc with seg := { phase := .sendAppend, role := role, off := 0 }, ses := ses }

/-- The state whose next link read is answered by a raw frame. -/
def State.placeAnswer (raw : Bytes) (s : State) : State :=
  { s with env := { s.env with link := some raw :: s.env.link } }

/-- The state whose next step meets a host request. -/
def State.placeRequest (op : BitVec 2) (a : HostArgs) (s : State) : State :=
  { s with
    seq := { s.seq with state := .idle }
    env := { s.env with held := { op := op, args := a } :: s.env.held } }

/-- The state whose next step runs an instruction. RSP.R is placed as a status response, RSP.E as the final acknowledgment
of an encryption, RSP.T in its drain. -/
def State.place (i : Instr) (s : State) : State :=
  match i with
  | .setiClr => s.placeClear .input 1
  | .setiApp c => s.placeAppend .input 1 { s.ses with input := c }
  | .setkClr => s.placeClear .key 2
  | .setkApp c => s.placeAppend .key 2 { s.ses with key := c }
  | .setaClr => s.placeClear .ad 3
  | .setaApp c => s.placeAppend .ad 3 { s.ses with ad := c }
  | .perfEnc n => { s.atMacroStep .encrypt 6 with ses := { s.ses with nonce := n } }
  | .perfDec n => { s.atMacroStep .decrypt 5 with ses := { s.ses with nonce := n } }
  | .hash => s.atMacroStep .hash 3
  | .status => s.atMacroStep .status 1
  | .rspR f => (s.atMacroStep .status 2).placeAnswer (rawFrame tagR f)
  | .rspE f => (s.atMacroStep .encrypt 8).placeAnswer (rawFrame tagE f)
  | .rspT f => ({ s.atMacroStep .encrypt 7 with acc := { s.acc with state := .awaiting } } : State).placeAnswer (rawFrame tagT f)
  | .hostEncrypt a => s.placeRequest 0 a
  | .hostDecrypt a => s.placeRequest 1 a
  | .hostHash a => s.placeRequest 2 a
  | .hostStatus a => s.placeRequest 3 a

end Sys2Proof.Machine
end

