-- ==== Sys2Proof/Machine/Step.lean ====
section
/-! DEFINITION. One step of the block: at most one interaction with one external agent and the register updates that go
with it (spec/00_scope.md R11). -/

namespace Sys2Proof.Machine

/-- One step (43_sequencer.md R230). -/
def step (s : State) : Host.Outcome State Fault Refusal :=
  match s.activity with
  | .runs i t => exec i t
  | .goes t => .next t
  | .stuck f => .fault f

/-- The state in which the next step runs the instruction of an opcode-table word (log 11). A word that is no
instruction changes nothing. -/
def State.withFetchWord (s : State) (nbits w : Nat) : State :=
  match decodeTableWord nbits w with
  | some i => s.place i
  | none => s

end Sys2Proof.Machine
end

