-- ==== Sys2Proof/WellFormed.lean ====
section
/-! DEFINITION. Which terms of `Instr` the spec's encodings and the block's rules admit (spec/30_encoding.md R103, R104). -/

namespace Sys2Proof

/-- A chunk of an append command has 1 to `CHUNK_SIZE` bytes (30_encoding.md R103, 41_segmenter.md R176). -/
def chunkOk (chunk : Bytes) : Bool := 1 ≤ chunk.length && chunk.length ≤ chunkSize

/-- A nonce operand has at most `MAX_CMD_PAYLOAD` bytes (30_encoding.md R101). -/
def nonceOk (nonce : Bytes) : Bool := nonce.length ≤ maxCmdPayload

/-- The trailer has two bytes, or one in a frame of four bytes, which has no payload (30_encoding.md R104). -/
def frameOk (f : Frame) : Bool :=
  f.trailer.length = trailerLen || (f.payload.isEmpty && f.trailer.length = 1)

/-- The well-formed instructions. -/
def Instr.wellFormed : Instr → Bool
  | .setiClr => true
  | .setiApp c => chunkOk c
  | .setkClr => true
  | .setkApp c => chunkOk c
  | .setaClr => true
  | .setaApp c => chunkOk c
  | .perfEnc n => nonceOk n
  | .perfDec n => nonceOk n
  | .hash => true
  | .status => true
  | .rspR f => frameOk f
  | .rspE f => frameOk f
  | .rspT f => frameOk f
  | .hostEncrypt _ => true
  | .hostDecrypt _ => true
  | .hostHash _ => true
  | .hostStatus _ => true

end Sys2Proof
end

