-- ==== Sys2Proof/Safety.lean ====
section
/-! DEFINITION. What counts as a safe state and a safe history, in the terms the statements use. Each predicate names the
rule of spec/ that it renders. -/

namespace Sys2Proof.Machine

/-! ### States that a rule gives a step -/

/-- `SEQ.PC` names a macro-step of the program (spec/43_sequencer.md R232). -/
def State.PcOk (s : State) : Prop := s.seq.pc.toNat < (program s.seq.op).length

/-- No running drain is `FAILED` (spec/42_accumulator.md R208). -/
def State.DrainOk (s : State) : Prop :=
  s.seq.state = .run → s.macroStep? = some .drain → s.acc.state ≠ .failed

/-- The states in which a rule gives the block its next step. -/
def State.Safe (s : State) : Prop := s.PcOk ∧ s.DrainOk

/-! ### The Segmenter -/

/-- What `SEG.OFF` is in each phase of an upload (spec/41_segmenter.md R170 to R177, spec/20_memory.md R87): 0 before the
first append, a multiple of `CHUNK_SIZE` short of the end before an append, that or the end after one, the end when done. -/
def State.SegOk (s : State) : Prop :=
  s.seg.off ≤ s.uploadBuffer.length ∧
  match s.seg.phase with
  | .check | .sendClear | .ackClear => s.seg.off = 0
  | .sendAppend => s.seg.off < s.uploadBuffer.length ∧ s.seg.off % chunkSize = 0
  | .ackAppend => 0 < s.seg.off ∧ (s.seg.off = s.uploadBuffer.length ∨ s.seg.off % chunkSize = 0)
  | .done => s.seg.off = s.uploadBuffer.length

/-- The chunks of a buffer: append `k` carries `buf[100*k ..< min(100*k + 100, len(buf))]` (spec/20_memory.md R85). -/
def chunksOf (buf : Bytes) : List Bytes :=
  (List.range (ceilDiv buf.length chunkSize)).map fun k =>
    slice buf (chunkSize * k) (min (chunkSize * k + chunkSize) buf.length)

/-! ### The error record -/

/-- The stages of an acknowledgment (spec/40_frame_codec.md R146, spec/10_state.md R41). -/
def Stage.isAck : Stage → Bool
  | .setInput | .setKey | .setAd | .finalAck | .statusAck => true
  | .none | .perform | .fetchResult | .statusQuery | .capture => false

/-- The stages of an upload (spec/10_state.md R41). -/
def Stage.isUpload : Stage → Bool
  | .setInput | .setKey | .setAd => true
  | .none | .perform | .fetchResult | .finalAck | .statusQuery | .statusAck | .capture => false

/-- The complete cause table of spec/60_exceptions.md R275: which class, stage and code a failure records together. -/
def causeListed (cls : ErrClass) (stage : Stage) (code : Byte) : Prop :=
  match cls with
  | .none => False
  | .configLength => stage.isUpload = true ∧ code = 0
  | .localTimeout => (stage.isAck = true ∨ stage = .fetchResult ∨ stage = .statusQuery) ∧ code = 0
  | .unexpectedTag =>
    (stage.isAck = true ∧ code ≠ 0x65) ∨ (stage = .fetchResult ∧ code ≠ 0x72 ∧ code ≠ 0x65 ∧ code ≠ 0x74) ∨
      (stage = .statusQuery ∧ code ≠ 0x72 ∧ code ≠ 0x65)
  | .malformedFrame =>
    (stage.isAck = true ∧ code = 0x65) ∨ (stage = .fetchResult ∧ (code = 0x74 ∨ code = 0x65)) ∨
      (stage = .statusQuery ∧ (code = 0x72 ∨ code = 0x65))
  | .protocol => (stage.isAck = true ∨ stage = .fetchResult ∨ stage = .statusQuery) ∧ code ≠ 0
  | .payloadTooLong => stage = .perform ∧ code = 0
  | .resultOverflow => stage = .fetchResult ∧ code = 0x72
  | .resultLength => stage = .fetchResult
  | .errorFrameZero => (stage = .fetchResult ∨ stage = .statusQuery) ∧ code = 0
  | .instrumentTimeout => stage = .capture ∧ code = 0

/-- `ERR` is clear, or it records a listed cause while the block is in `IDLE`, with `ERR.KNOWN` as spec/60_exceptions.md
R273 says (spec/10_state.md R38). -/
def State.ErrOk (s : State) : Prop :=
  s.err = .reset ∨
    (s.seq.state = .idle ∧ s.err.valid = true ∧ causeListed s.err.cls s.err.stage s.err.code ∧
      (s.err.known = true ↔ s.err.cls = .protocol ∧ (statusName s.par s.err.code).isSome = true))

/-! ### Event histories -/

/-- Scan a history for the send-read alternation of spec/20_memory.md R93: `none` when a send was followed by a link
interaction other than a read, otherwise whether the last send still awaits its read. -/
def scanLink : Bool → List Event → Option Bool
  | awaiting, [] => some awaiting
  | awaiting, .send _ _ _ :: es => if awaiting then none else scanLink true es
  | _, .read _ _ :: es => scanLink false es
  | awaiting, .flush :: es => if awaiting then none else scanLink false es
  | awaiting, .arm :: es => scanLink awaiting es
  | awaiting, .capture _ :: es => scanLink awaiting es
  | awaiting, .trace _ :: es => scanLink awaiting es
  | awaiting, .entropy _ _ :: es => scanLink awaiting es
  | awaiting, .respond _ :: es => scanLink awaiting es
  | awaiting, .flash :: es => scanLink awaiting es

/-- The history alternates, and a send that awaits its read finds the block at a read (spec/20_memory.md R93). -/
def State.LinkOk (s : State) : Prop :=
  ∃ awaiting, scanLink false s.hist = some awaiting ∧ (awaiting = true → s.readSite?.isSome = true)

/-- An event is a host response. -/
def Event.isResponse : Event → Bool
  | .respond _ => true
  | _ => false

/-- An event is the flashing of the target. -/
def Event.isFlash : Event → Bool
  | .flash => true
  | _ => false

/-- An event is a call of the instrument. -/
def Event.isInstrument : Event → Bool
  | .arm => true
  | .capture _ => true
  | .trace _ => true
  | _ => false

/-- How many responses a history holds. -/
def responseCount (h : List Event) : Nat := h.countP Event.isResponse

/-- A response is whole or a failure without result, trace and flags (spec/10_state.md R45, spec/60_exceptions.md R282). -/
def HostResponse.wellFormed (r : HostResponse) : Prop :=
  (r.ok = true → r.err.valid = false) ∧
  (r.ok = false → r.err.valid = true ∧ r.result = [] ∧ r.trace = [] ∧ r.traceValid = false ∧ r.keyIsDone = false ∧
    r.inputMinLen = false ∧ r.flagsValid = false)

/-- Every response of the history is well formed. -/
def State.ResponsesOk (s : State) : Prop := ∀ r, Event.respond r ∈ s.hist → r.wellFormed

/-- The target is flashed with the binding and never again (spec/70_reset_and_hazards.md R311, spec/60_exceptions.md R298). -/
def State.FlashOk (s : State) : Prop :=
  s.bind.flashed = s.bind.linkBound ∧ s.hist.countP Event.isFlash = if s.bind.linkBound then 1 else 0

/-- `ACC.RESULT` is within `MAX_RESULT_LEN` (spec/10_state.md R35, spec/20_memory.md R82). -/
def State.ResultOk (s : State) : Prop := ∀ m, s.par.maxResultLen = some m → s.acc.result.length ≤ m

/-- One interaction, or the interaction of a failing step with the failure's response (spec/00_scope.md R11). -/
def oneInteraction : List Event → Prop
  | [] => True
  | [_] => True
  | [e, .respond r] => e.isResponse = false ∧ r.ok = false
  | _ => False

/-- The transitions of `ACC.STATE` that spec/42_accumulator.md R209 lists, with "unchanged" for a step that is none of its
events. -/
def accTransition (old new : AccState) : Prop :=
  new = old ∨ new = .awaiting ∨ old = .awaiting ∨ (old = .accumulating ∧ (new = .done ∨ new = .failed))

/-! ### Answers and event lists of whole macro-steps -/

/-- A raw frame that passes as an acknowledgment (spec/40_frame_codec.md R146). -/
def passesAck (raw : Bytes) : Prop := ∃ f, decodeRsp raw = .ok (.rspE f) ∧ firstOperand f = some 0

/-- The frame a raw answer is when it is a data frame. -/
def dataPayload (raw : Bytes) : Option Bytes :=
  match decodeRsp raw with
  | .ok (.rspR f) => some f.payload
  | _ => none

/-- The concatenation, in order, of the payloads of a list of data frames; `none` if one is no data frame
(spec/20_memory.md R86). -/
def resultOf : List Bytes → Option Bytes
  | [] => some []
  | raw :: rest =>
    match dataPayload raw, resultOf rest with
    | some p, some ps => some (p ++ ps)
    | _, _ => none

/-- A raw frame is a terminator with a count (spec/42_accumulator.md R204). -/
def terminatorCount (raw : Bytes) : Option Byte :=
  match decodeRsp raw with
  | .ok (.rspT f) => firstOperand f
  | _ => none

/-- The command tag of a role (spec/10_state.md R42). -/
def Role.tag : Role → Byte
  | .input => 0x69
  | .key => 0x6B
  | .ad => 0x61

/-- The events of an upload: the clear and its acknowledgment, then each chunk and its acknowledgment
(spec/41_segmenter.md R180, spec/30_encoding.md R112). -/
def uploadEvents (tag : Byte) (buf : Bytes) (acks : List Bytes) : List Event :=
  (List.zipWith (fun (cmd : Byte × Bytes) ack => [Event.send tag cmd.1 cmd.2, Event.read .ack (some ack)])
    ((0x01, []) :: (chunksOf buf).map fun c => (0x00, c)) acks).flatten

/-- The events of a drain: one read for each answer (spec/42_accumulator.md R201). -/
def drainEvents (answers : List Bytes) : List Event := answers.map fun raw => Event.read .cmd (some raw)

end Sys2Proof.Machine
end

