-- ==== Sys2Proof/Certificates/Slice0/Obligations.lean ====
section
/-! DEFINITION. The statements for the provers. Each docstring names the rules of spec/ that the statement comes from, or says
that it is the model's own choice; OBLIGATIONS.json says which rules a statement renders whole. A rule that the spec rests on
one of its decisions (92_eei_decisions.md) is taken as the rule it is; one that the spec marks as derived is cited by its
section only. -/

open Sys2Proof Sys2Proof.Machine

/-! ### Encoding -/

/-- A few words written out from 30_encoding.md R100, R103, R104, R110 and the vectors of 95_test_vectors.md 2.1 and 2.2
decode to the instructions they stand for. The one-byte trailer of the four-byte frame (vector DC4) is the model's
representation (log 16): the spec gives that frame an empty payload and keeps no trailer. -/
def Obligations.WrittenOutWordsDecode : Prop :=
  decode (.cmd [0x69, 0x01, 0x00]) = .ok .setiClr ∧
  decode (.cmd [0x6B, 0x00, 0x02, 0x00, 0x01]) = .ok (.setkApp [0x00, 0x01]) ∧
  decode (.cmd [0x61, 0x00, 0x01, 0xAD]) = .ok (.setaApp [0xAD]) ∧
  decode (.cmd [0x70, 0x01, 0x02, 0xA0, 0xA1]) = .ok (.perfEnc [0xA0, 0xA1]) ∧
  decode (.cmd [0x70, 0x00, 0x00]) = .ok (.perfDec []) ∧
  decode (.cmd [0x68, 0x00, 0x00]) = .ok .hash ∧
  decode (.cmd [0x73, 0x00, 0x00]) = .ok .status ∧
  decode (.rsp [0x00, 0x72, 0x09, 0x11, 0xCC, 0x00]) = .ok (.rspR ⟨0x00, 0x09, [0x11], [0xCC, 0x00]⟩) ∧
  decode (.rsp [0x00, 0x65, 0x01, 0x00]) = .ok (.rspE ⟨0x00, 0x01, [], [0x00]⟩) ∧
  decode (.rsp [0xFF, 0x74, 0x01, 0x05, 0x12, 0x34]) = .ok (.rspT ⟨0xFF, 0x01, [0x05], [0x12, 0x34]⟩) ∧
  decode (.hostop 2 ⟨[0x61], [], [], []⟩) = .ok (.hostHash ⟨[0x61], [], [], []⟩)

/-- Decoding the encoding of a well-formed instruction gives it back, with every operand at every value the encoding
admits. That an inbound frame's start byte and trailer are operands, the byte shared by length and trailer kept once, is the
model's choice (log 16). -/
def Obligations.DecodeOfEncode : Prop :=
  ∀ i : Instr, i.wellFormed = true → decode (encode i) = .ok i

/-- Whatever decodes is the encoding of what it decodes to: the decoder drops no bit and each form has one meaning. For an
inbound frame (30_encoding.md R104, R105) this rests on the model's choice that `Frame` keeps the start byte and the trailer,
with the byte that a four-byte frame shares between length and trailer kept once (log 16); the spec's `RXF` keeps neither
(10_state.md R36, 92_eei_decisions.md D34). -/
def Obligations.EncodeOfDecode : Prop :=
  ∀ (e : Encoded) (i : Instr), decode e = .ok i → encode i = e

/-- 40_frame_codec.md R142: a read shorter than `FRAME_MIN` is unfilled; a longer one gives its tag at raw position 1, its
declared length at 2, and the payload bytes from 3 up to the trailing two, with the raw length kept. -/
def Obligations.DecodeIsPositional : Prop :=
  ∀ raw : Bytes,
    (raw.length < 4 → splitFrame raw = none) ∧
    (4 ≤ raw.length → ∃ tag f, splitFrame raw = some (tag, f) ∧ raw[1]? = some tag ∧ raw[2]? = some f.declLen ∧
      f.payload.length = raw.length - 5 ∧ (∀ j, j < raw.length - 5 → f.payload[j]? = raw[3 + j]?) ∧
      f.rawLen = raw.length)

/-- 40_frame_codec.md R141: the wire bytes of a well-formed outbound command recover it, for every instance of `WIRE_WRAP`
that meets the rule: one that recovers the logical frames of 30_encoding.md R100 and R101, whatever it does to other bytes. -/
def Obligations.WireBytesRecoverTheCommand : Prop :=
  ∀ (w : WireWrap) (i : Instr) (frame : Bytes), i.wellFormed = true → encode i = .cmd frame →
    decode (.cmd (w.unwrap (w.wrap frame))) = .ok i

/-! ### The step -/

/-- A step runs the decoded instruction: a presented request, an answered read, and the command that the program selects.
The state it runs on has moved past the request or the answer. -/
def Obligations.StepRunsTheDecodedInstruction : Prop :=
  ∀ s : State,
    (∀ r i, s.seq.state = .idle → s.hostAnswer = some (.request r) → decode (.hostop r.op r.args) = .ok i →
      step s = exec i s.afterHost) ∧
    (∀ site raw i, s.readSite? = some site → s.linkAnswer = some raw → decode (.rsp raw) = .ok i →
      step s = exec i (s.afterRead site.timeoutClass)) ∧
    (∀ role, s.seq.state = .run → s.macroStep? = some (.upload role) → s.seg.phase = .sendClear →
      step s = exec (clearCommand s.seg.role) s) ∧
    (∀ role, s.seq.state = .run → s.macroStep? = some (.upload role) → s.seg.phase = .sendAppend →
      step s = exec (appendCommand s.seg.role s.nextChunk) s) ∧
    (s.seq.state = .run → s.macroStep? = some .performEnc → step s = exec (.perfEnc s.ses.nonce) s) ∧
    (s.seq.state = .run → s.macroStep? = some .performDec → step s = exec (.perfDec s.ses.nonce) s) ∧
    (s.seq.state = .run → s.macroStep? = some .performHash → step s = exec .hash s) ∧
    (s.seq.state = .run → s.macroStep? = some .sendStatus → step s = exec .status s)

/-- The model's choice (log 11): a placed well-formed instruction is the one the next step runs, in any state, and the
step answers a next state. -/
def Obligations.PlacedInstructionRuns : Prop :=
  ∀ (s : State) (i : Instr), i.wellFormed = true →
    ∃ t u, (s.place i).activity = .runs i t ∧ step (s.place i) = exec i t ∧ exec i t = .next u

/-! ### Outbound commands -/

/-- 41_segmenter.md R172, R175: a clear command is sent with `scmd` 0x01 and no payload, then `SEG.PHASE` is `ACK_CLEAR`;
nothing else changes. That it holds in every state, not in SEND_CLEAR only, is the model's choice (log 8, log 17). -/
def Obligations.ClearCommandsSend : Prop :=
  ∀ s : State,
    exec .setiClr s = .next { s with
      hist := s.hist ++ [.send 0x69 0x01 []], seg := { s.seg with phase := .ackClear } } ∧
    exec .setkClr s = .next { s with
      hist := s.hist ++ [.send 0x6B 0x01 []], seg := { s.seg with phase := .ackClear } } ∧
    exec .setaClr s = .next { s with
      hist := s.hist ++ [.send 0x61 0x01 []], seg := { s.seg with phase := .ackClear } }

/-- 41_segmenter.md R174, R176, 40_frame_codec.md R140: an append command that the encoder accepts is sent with `scmd` 0x00
and its chunk unaltered, then `SEG.OFF` counts the chunk and `SEG.PHASE` is `ACK_APPEND`; nothing else changes. That it
holds in every state, not in SEND_APPEND only, is the model's choice (log 8, log 17). -/
def Obligations.AppendCommandsSend : Prop :=
  ∀ (s : State) (chunk : Bytes), chunk.length ≤ 255 →
    exec (.setiApp chunk) s = .next { s with
      hist := s.hist ++ [.send 0x69 0x00 chunk],
      seg := { s.seg with phase := .ackAppend, off := s.seg.off + chunk.length } } ∧
    exec (.setkApp chunk) s = .next { s with
      hist := s.hist ++ [.send 0x6B 0x00 chunk],
      seg := { s.seg with phase := .ackAppend, off := s.seg.off + chunk.length } } ∧
    exec (.setaApp chunk) s = .next { s with
      hist := s.hist ++ [.send 0x61 0x00 chunk],
      seg := { s.seg with phase := .ackAppend, off := s.seg.off + chunk.length } }

/-- The effect of 43_sequencer.md R242, given to `exec`: PERF.ENC and PERF.DEC in their macro-steps send the nonce, move to
the next macro-step and enter its DRAIN; nothing else changes. A nonce longer than 255 bytes fails before anything is sent.
That it holds for any nonce operand and also in `IDLE` with `SEQ.PC` left at that macro-step, where R242 says nothing and
60_exceptions.md R284 raises no failure, is the model's choice (log 8); the rule itself is in PerformAndStatusSteps. -/
def Obligations.PerformCommandsSend : Prop :=
  ∀ (s : State) (nonce : Bytes),
    (nonce.length ≤ 255 → s.macroStep? = some .performEnc → exec (.perfEnc nonce) s = .next { s with
      hist := s.hist ++ [.send 0x70 0x01 nonce], seq := { s.seq with pc := s.seq.pc + 1 },
      acc := { state := .awaiting, result := [], nchunk := 0 } }) ∧
    (nonce.length ≤ 255 → s.macroStep? = some .performDec → exec (.perfDec nonce) s = .next { s with
      hist := s.hist ++ [.send 0x70 0x00 nonce], seq := { s.seq with pc := s.seq.pc + 1 },
      acc := { state := .awaiting, result := [], nchunk := 0 } }) ∧
    (255 < nonce.length → s.macroStep? = some .performEnc →
      exec (.perfEnc nonce) s = .next (s.fail .payloadTooLong .perform 0x00)) ∧
    (255 < nonce.length → s.macroStep? = some .performDec →
      exec (.perfDec nonce) s = .next (s.fail .payloadTooLong .perform 0x00))

/-- The effects of 43_sequencer.md R243 and R250, given to `exec`: HASH sends `[0x68, 0x00]` and STATUS sends
`[0x73, 0x00]`, each without payload, and moves to the next macro-step, a DRAIN that HASH enters; nothing else changes. That
it also holds in `IDLE` with `SEQ.PC` left at that macro-step is the model's choice (log 8); the rules themselves are in
PerformAndStatusSteps. -/
def Obligations.HashAndStatusCommandsSend : Prop :=
  ∀ s : State,
    (s.macroStep? = some .performHash → exec .hash s = .next { s with
      hist := s.hist ++ [.send 0x68 0x00 []], seq := { s.seq with pc := s.seq.pc + 1 },
      acc := { state := .awaiting, result := [], nchunk := 0 } }) ∧
    (s.macroStep? = some .sendStatus → exec .status s = .next { s with
      hist := s.hist ++ [.send 0x73 0x00 []], seq := { s.seq with pc := s.seq.pc + 1 } })

/-- 40_frame_codec.md R140, 30_encoding.md R101: an append payload longer than 255 bytes is refused before anything is sent;
the command fails with `PAYLOAD_TOO_LONG` at its stage (41_segmenter.md section 1). That `exec` acts on such a command, and in
every state, is the model's choice (log 8): the block never sends one (41_segmenter.md R176), and 60_exceptions.md R275
lists the failure at `PERFORM` only. -/
def Obligations.OverlongAppendsFail : Prop :=
  ∀ (s : State) (p : Bytes), 255 < p.length →
    exec (.setiApp p) s = .next (s.fail .payloadTooLong .setInput 0x00) ∧
    exec (.setkApp p) s = .next (s.fail .payloadTooLong .setKey 0x00) ∧
    exec (.setaApp p) s = .next (s.fail .payloadTooLong .setAd 0x00)

/-! ### Inbound frames -/

/-- 42_accumulator.md R202, R203: a data frame in a drain that stays within `MAX_RESULT_LEN`, or meets `UNBOUNDED`, appends
its whole payload, counts as one chunk, empty or not, and leaves `ACCUMULATING`; `RXF` holds the frame and nothing else
changes. One that would take the result past the bound fails with `RESULT_OVERFLOW`, and its payload is not appended. -/
def Obligations.DataFramesInADrain : Prop :=
  ∀ (s : State) (f : Frame), s.readSite? = some .drain →
    ((∀ m, s.par.maxResultLen = some m → s.acc.result.length + f.payload.length ≤ m) → exec (.rspR f) s = .next { s with
      rxf := { filled := true, cmd := 0x72, declLen := f.declLen, payload := f.payload, rawLen := f.rawLen },
      acc := { state := .accumulating, result := s.acc.result ++ f.payload, nchunk := s.acc.nchunk + 1 } }) ∧
    (∀ m, s.par.maxResultLen = some m → m < s.acc.result.length + f.payload.length →
      exec (.rspR f) s = .next ((s.latchFrame 0x72 f).fail .resultOverflow .fetchResult 0x72) ∧
      ((s.latchFrame 0x72 f).fail .resultOverflow .fetchResult 0x72).acc = { s.acc with state := .failed })

/-- 42_accumulator.md R204: a terminator whose check passes under `TERM_FAIL_ON` makes the drain `DONE`, and `RXF` holds the
frame; nothing else changes. One whose check fails fails with `RESULT_LENGTH` and the count, one without payload fails as
malformed. -/
def Obligations.TerminatorsInADrain : Prop :=
  ∀ (s : State) (f : Frame), s.readSite? = some .drain →
    (∀ count, f.payload[0]? = some count →
      ((s.par.termFailOn = .mismatch ∧ s.acc.nchunk % 256 = count.toNat) ∨
        (s.par.termFailOn = .equal ∧ s.acc.nchunk % 256 ≠ count.toNat)) →
      exec (.rspT f) s = .next { s with
        rxf := { filled := true, cmd := 0x74, declLen := f.declLen, payload := f.payload, rawLen := f.rawLen },
        acc := { s.acc with state := .done } }) ∧
    (∀ count, f.payload[0]? = some count →
      ((s.par.termFailOn = .mismatch ∧ s.acc.nchunk % 256 ≠ count.toNat) ∨
        (s.par.termFailOn = .equal ∧ s.acc.nchunk % 256 = count.toNat)) →
      exec (.rspT f) s = .next ((s.latchFrame 0x74 f).fail .resultLength .fetchResult count)) ∧
    (f.payload = [] → exec (.rspT f) s = .next ((s.latchFrame 0x74 f).fail .malformedFrame .fetchResult 0x74))

/-- 42_accumulator.md R205, 43_sequencer.md R251: an error frame in a drain or in a status response always fails the
operation: malformed without payload, `ERROR_FRAME_ZERO` for status 0x00, `PROTOCOL` with the status otherwise. -/
def Obligations.ErrorFramesFail : Prop :=
  ∀ (s : State) (f : Frame) (site : ReadSite), s.readSite? = some site → (site = .drain ∨ site = .statusResponse) →
    (f.payload = [] → exec (.rspE f) s = .next ((s.latchFrame 0x65 f).fail .malformedFrame site.stage 0x65)) ∧
    (f.payload[0]? = some 0x00 → exec (.rspE f) s = .next ((s.latchFrame 0x65 f).fail .errorFrameZero site.stage 0x00)) ∧
    (∀ status, f.payload[0]? = some status → status ≠ 0x00 →
      exec (.rspE f) s = .next ((s.latchFrame 0x65 f).fail .protocol site.stage status))

/-- 40_frame_codec.md R146 with 41_segmenter.md R173, R177 and 43_sequencer.md R247: an acknowledgment with status 0x00 lets
the caller go on, in the same step: the upload's next phase, or the next macro-step. `RXF` holds the frame; nothing else
changes. -/
def Obligations.AcknowledgmentPasses : Prop :=
  ∀ (s : State) (f : Frame), s.seq.state = .run → f.payload[0]? = some 0x00 →
    (∀ role, s.macroStep? = some (.upload role) → s.seg.phase = .ackClear → exec (.rspE f) s = .next { s with
      rxf := { filled := true, cmd := 0x65, declLen := f.declLen, payload := f.payload, rawLen := f.rawLen },
      seg := { s.seg with phase := if s.uploadBuffer = [] then .done else .sendAppend } }) ∧
    (∀ role, s.macroStep? = some (.upload role) → s.seg.phase = .ackAppend → exec (.rspE f) s = .next { s with
      rxf := { filled := true, cmd := 0x65, declLen := f.declLen, payload := f.payload, rawLen := f.rawLen },
      seg := { s.seg with phase := if s.seg.off = s.uploadBuffer.length then .done else .sendAppend } }) ∧
    (∀ stage, s.macroStep? = some (.ack stage) → exec (.rspE f) s = .next { s with
      rxf := { filled := true, cmd := 0x65, declLen := f.declLen, payload := f.payload, rawLen := f.rawLen },
      seq := { s.seq with pc := s.seq.pc + 1 } })

/-- 40_frame_codec.md R146: the failures of an acknowledgment read, in the order the rule checks: unfilled, tag, missing
status byte, status. Each is charged to the site's stage, and `RXF` holds what was read. -/
def Obligations.AcknowledgmentFailures : Prop :=
  ∀ (s : State) (stage : Stage), s.readSite? = some (.ack stage) →
    (s.linkAnswer = none →
      step s = .next (((s.afterRead .ack).latchUnfilled 0).fail .localTimeout stage 0x00)) ∧
    (∀ raw, s.linkAnswer = some raw → raw.length < 4 →
      step s = .next (((s.afterRead .ack).latchUnfilled raw.length).fail .localTimeout stage 0x00)) ∧
    (∀ raw tag f, s.linkAnswer = some raw → splitFrame raw = some (tag, f) → tag ≠ 0x65 →
      step s = .next (((s.afterRead .ack).latchFrame tag f).fail .unexpectedTag stage tag)) ∧
    (∀ raw f, s.linkAnswer = some raw → splitFrame raw = some (0x65, f) → f.payload = [] →
      step s = .next (((s.afterRead .ack).latchFrame 0x65 f).fail .malformedFrame stage 0x65)) ∧
    (∀ raw f status, s.linkAnswer = some raw → splitFrame raw = some (0x65, f) → f.payload[0]? = some status →
      status ≠ 0x00 → step s = .next (((s.afterRead .ack).latchFrame 0x65 f).fail .protocol stage status))

/-- 40_frame_codec.md R145, R142: every step at a read site reads the link once, with the site's timeout class, and leaves in
`RXF` what DECODE gives for the answer: the unfilled sentinel with the raw length (0 for `EMPTY`), or the fields of a filled
frame by position. -/
def Obligations.ReadsWriteRxf : Prop :=
  ∀ (s t : State) (site : ReadSite), s.readSite? = some site → step s = .next t →
    (s.linkAnswer = none → t.rxf = { filled := false, cmd := 0x00, declLen := 0x00, payload := [], rawLen := 0 }) ∧
    (∀ raw, s.linkAnswer = some raw → raw.length < 4 →
      t.rxf = { filled := false, cmd := 0x00, declLen := 0x00, payload := [], rawLen := raw.length }) ∧
    (∀ raw tag declLen, s.linkAnswer = some raw → 4 ≤ raw.length → raw[1]? = some tag → raw[2]? = some declLen →
      t.rxf =
        { filled := true, cmd := tag, declLen := declLen, payload := (raw.drop 3).take (raw.length - 5), rawLen := raw.length }) ∧
    (∃ tc events, t.hist = s.hist ++ .read tc s.linkAnswer :: events ∧ (tc = .ack ↔ ∃ stage, site = .ack stage))

/-- 40_frame_codec.md R147: an unfilled frame at any read site, `EMPTY` or a short read, fails with `LOCAL_TIMEOUT` at the
site's stage, and `RXF` holds the unfilled sentinel with the raw length. -/
def Obligations.UnfilledReadsFail : Prop :=
  ∀ (s : State) (site : ReadSite), s.readSite? = some site →
    (s.linkAnswer = none →
      step s = .next (((s.afterRead site.timeoutClass).latchUnfilled 0).fail .localTimeout site.stage 0x00)) ∧
    (∀ raw, s.linkAnswer = some raw → raw.length < 4 →
      step s = .next (((s.afterRead site.timeoutClass).latchUnfilled raw.length).fail .localTimeout site.stage 0x00))

/-- 42_accumulator.md R206, 43_sequencer.md R251: a filled frame with a tag the drain or the status response does not accept
fails with `UNEXPECTED_TAG` and the tag. -/
def Obligations.UnexpectedTagsFail : Prop :=
  ∀ (s : State) (raw : Bytes) (tag : Byte) (f : Frame), s.linkAnswer = some raw → splitFrame raw = some (tag, f) →
    (s.readSite? = some .drain → tag ≠ 0x72 → tag ≠ 0x65 → tag ≠ 0x74 →
      step s = .next (((s.afterRead .cmd).latchFrame tag f).fail .unexpectedTag .fetchResult tag)) ∧
    (s.readSite? = some .statusResponse → tag ≠ 0x72 → tag ≠ 0x65 →
      step s = .next (((s.afterRead .cmd).latchFrame tag f).fail .unexpectedTag .statusQuery tag))

/-- 43_sequencer.md R251: the data frame of a status response sets the two flags from its first two bytes, true when not
0x00, and moves to the next macro-step; with fewer than two bytes it fails as malformed. -/
def Obligations.StatusResponseSetsFlags : Prop :=
  ∀ (s : State) (f : Frame), s.readSite? = some .statusResponse →
    (∀ a b : Byte, f.payload[0]? = some a → f.payload[1]? = some b → exec (.rspR f) s = .next { s with
      rxf := { filled := true, cmd := 0x72, declLen := f.declLen, payload := f.payload, rawLen := f.rawLen },
      stat := { keyIsDone := decide (a ≠ 0x00), inputMinLen := decide (b ≠ 0x00), valid := s.stat.valid },
      seq := { s.seq with pc := s.seq.pc + 1 } }) ∧
    (f.payload.length < 2 →
      exec (.rspR f) s = .next ((s.latchFrame 0x72 f).fail .malformedFrame .statusQuery 0x72))

/-- The model's choice (log 8): an inbound frame changes nothing in a state that reads no link. -/
def Obligations.NoFrameIsTakenOutsideARead : Prop :=
  ∀ (s : State) (f : Frame), s.readSite? = none →
    exec (.rspR f) s = .next s ∧ exec (.rspE f) s = .next s ∧ exec (.rspT f) s = .next s

/-! ### Host operations -/

/-- 43_sequencer.md R233: in `IDLE` each host operation is accepted: the operands are latched, the records of the last
operation are cleared and the operation's program starts at 0; nothing else changes. In `RUN` it is not accepted: no
register changes and nothing happens. -/
def Obligations.HostOperationsAccepted : Prop :=
  ∀ (s : State) (a : HostArgs) (op : HostOp) (i : Instr),
    (op, i) ∈ [(HostOp.encrypt, Instr.hostEncrypt a), (.decrypt, .hostDecrypt a), (.hash, .hostHash a),
      (.status, .hostStatus a)] →
    (s.seq.state = .idle → exec i s = .next { s with
      seq := { state := .run, op := op, pc := 0 }
      ses := { input := a.input, key := a.key, ad := a.ad, nonce := a.nonce }
      err := { valid := false, cls := .none, stage := .none, code := 0x00, known := false }
      stat := { keyIsDone := false, inputMinLen := false, valid := false }
      out := { trace := [], traceValid := false }
      acc := { state := .awaiting, result := [], nchunk := 0 }
      seg := { phase := .check, role := .input, off := 0 } }) ∧
    (s.seq.state = .run → ∃ env, exec i s = .next { s with env := env })

/-- 43_sequencer.md R264: a request presented in `RUN` is not accepted; it stays pending, behind the requests already
pending; no register changes. The list that holds it is the model's choice (log 8). -/
def Obligations.RequestsAreHeldInRun : Prop :=
  ∀ (s : State) (a : HostArgs) (op : BitVec 2) (i : Instr), s.seq.state = .run →
    (op, i) ∈ [((0 : BitVec 2), Instr.hostEncrypt a), (1, .hostDecrypt a), (2, .hostHash a), (3, .hostStatus a)] →
    exec i s = .next { s with env := { s.env with held := s.env.held ++ [{ op := op, args := a }] } }

/-- The model's choice (log 4): in `IDLE` with nothing presented no register changes and nothing happens; only the
host's script moves. -/
def Obligations.IdleWaits : Prop :=
  ∀ s : State, s.seq.state = .idle → s.hostAnswer = none →
    step s = .next { s with env := s.env.afterHost }

/-! ### Failure, reset and construction -/

/-- 60_exceptions.md R280, R273: what the failure procedure writes, and that it writes nothing else: `ERR`, `ACC.STATE` in
a DRAIN macro-step, the response without result, trace and flags, and `SEQ.STATE`. -/
def Obligations.FailureProcedure : Prop :=
  ∀ (s : State) (cls : ErrClass) (stage : Stage) (code : Byte), ∃ e : ErrorReg,
    e.valid = true ∧ e.cls = cls ∧ e.stage = stage ∧ e.code = code ∧
    (e.known = true ↔ cls = .protocol ∧ (statusName s.par code).isSome = true) ∧
    s.fail cls stage code = { s with
      err := e
      acc := if s.macroStep? = some .drain then { s.acc with state := .failed } else s.acc
      hist := s.hist ++ [.respond
        { ok := false, result := [], trace := [], traceValid := false, keyIsDone := false,
          inputMinLen := false, flagsValid := false, err := e }]
      seq := { s.seq with state := .idle } }

/-- 70_reset_and_hazards.md R310: every register at its reset value; `CFG` holds the construction arguments, which are OPEN
parameters of 00_scope.md R13 (log 3). -/
def Obligations.ResetState : Prop :=
  State.reset.cfg =
    { keyLen := Config.keyLen, maxInputLen := Config.maxInputLen, maxAdLen := Config.maxAdLen, nonceLen := Config.nonceLen } ∧
  State.reset.bind = { linkBound := false, flashed := false } ∧
  State.reset.seq = { state := .idle, op := .encrypt, pc := 0 } ∧
  State.reset.ses = { input := [], key := [], ad := [], nonce := [] } ∧
  State.reset.seg = { phase := .check, role := .input, off := 0 } ∧
  State.reset.acc = { state := .awaiting, result := [], nchunk := 0 } ∧
  State.reset.rxf = { filled := false, cmd := 0x00, declLen := 0x00, payload := [], rawLen := 0 } ∧
  State.reset.stat = { keyIsDone := false, inputMinLen := false, valid := false } ∧
  State.reset.err = { valid := false, cls := .none, stage := .none, code := 0x00, known := false } ∧
  State.reset.out = { trace := [], traceValid := false }

/-- 70_reset_and_hazards.md R311: the first construction binds, flashes, sets `CFG` and puts every other register at its
reset value; with a live link a construction changes no register and makes no interaction. That it is
presented in `IDLE`, and that the OPEN parameters, the agents and the history stay, is the model's choice (log 6). -/
def Obligations.ConstructionOnce : Prop :=
  ∀ (s : State) (cfg : LinkConfig), s.seq.state = .idle → s.hostAnswer = some (.construct cfg) →
    (s.bind.linkBound = false → step s = .next { State.reset with
      cfg := cfg, bind := { linkBound := true, flashed := true }, par := s.par, env := s.env.afterHost,
      hist := s.hist ++ [.flash] }) ∧
    (s.bind.linkBound = true → step s = .next { s with env := s.env.afterHost })

/-! ### Steps of the Segmenter and of the macro-steps without a command -/

/-- 41_segmenter.md R171: CHECK fails with `CONFIG_LENGTH` at the role's stage when the buffer is longer than the role's
maximum, and else goes on to `SEND_CLEAR`; there is no interaction but the failure's response. -/
def Obligations.CheckPhase : Prop :=
  ∀ (s : State) (role : Role), s.seq.state = .run → s.macroStep? = some (.upload role) → s.seg.phase = .check →
    (∀ buf max stage,
      (s.seg.role = .input ∧ buf = s.ses.input ∧ max = s.cfg.maxInputLen ∧ stage = .setInput ∨
       s.seg.role = .key ∧ buf = s.ses.key ∧ max = s.cfg.keyLen ∧ stage = .setKey ∨
       s.seg.role = .ad ∧ buf = s.ses.ad ∧ max = s.cfg.maxAdLen ∧ stage = .setAd) →
      (max < buf.length → step s = .next (s.fail .configLength stage 0x00)) ∧
      (buf.length ≤ max → step s = .next { s with seg := { s.seg with phase := .sendClear } }))

/-- 41_segmenter.md R172, R175: SEND_CLEAR sends the clear command of `SEG.ROLE`, then `SEG.PHASE` is `ACK_CLEAR`. -/
def Obligations.SendClearPhase : Prop :=
  ∀ (s : State) (role : Role) (tag : Byte), s.seq.state = .run → s.macroStep? = some (.upload role) →
    s.seg.phase = .sendClear →
    (s.seg.role = .input ∧ tag = 0x69 ∨ s.seg.role = .key ∧ tag = 0x6B ∨ s.seg.role = .ad ∧ tag = 0x61) →
    step s = .next { s with hist := s.hist ++ [.send tag 0x01 []], seg := { s.seg with phase := .ackClear } }

/-- 41_segmenter.md R174, R176: SEND_APPEND sends the next `min(100, len(buf) - off)` bytes of the buffer of `SEG.ROLE` and
counts them. -/
def Obligations.SendAppendPhase : Prop :=
  ∀ (s : State) (role : Role) (tag : Byte) (buf : Bytes) (n : Nat), s.seq.state = .run →
    s.macroStep? = some (.upload role) → s.seg.phase = .sendAppend →
    (s.seg.role = .input ∧ tag = 0x69 ∧ buf = s.ses.input ∨ s.seg.role = .key ∧ tag = 0x6B ∧ buf = s.ses.key ∨
      s.seg.role = .ad ∧ tag = 0x61 ∧ buf = s.ses.ad) →
    n = min 100 (buf.length - s.seg.off) →
    step s = .next { s with
      hist := s.hist ++ [.send tag 0x00 ((buf.drop s.seg.off).take n)]
      seg := { s.seg with off := s.seg.off + n, phase := .ackAppend } }

/-- 41_segmenter.md R178, R170, 43_sequencer.md R232: DONE completes the upload and moves to the next macro-step; where that
is an upload, the Segmenter is restarted for its role. -/
def Obligations.UploadDonePhase : Prop :=
  ∀ (s : State) (role : Role), s.seq.state = .run → s.macroStep? = some (.upload role) → s.seg.phase = .done →
    (∀ next, (program s.seq.op)[s.seq.pc.toNat + 1]? = some (.upload next) → step s = .next { s with
      seq := { s.seq with pc := s.seq.pc + 1 }, seg := { phase := .check, role := next, off := 0 } }) ∧
    ((∀ next, (program s.seq.op)[s.seq.pc.toNat + 1]? ≠ some (.upload next)) → step s = .next { s with
      seq := { s.seq with pc := s.seq.pc + 1 } })

/-- 43_sequencer.md R234, R241, 41_segmenter.md R170: FLUSH and ARM make their call and move to the next macro-step, which
after FLUSH is the input upload of every program but STATUS. -/
def Obligations.FlushAndArmSteps : Prop :=
  ∀ s : State, s.seq.state = .run →
    (s.macroStep? = some .flush → s.seq.op ≠ .status → step s = .next { s with
      hist := s.hist ++ [.flush], seq := { s.seq with pc := s.seq.pc + 1 },
      seg := { phase := .check, role := .input, off := 0 } }) ∧
    (s.macroStep? = some .flush → s.seq.op = .status → step s = .next { s with
      hist := s.hist ++ [.flush], seq := { s.seq with pc := s.seq.pc + 1 } }) ∧
    (s.macroStep? = some .arm → step s = .next { s with
      hist := s.hist ++ [.arm], seq := { s.seq with pc := s.seq.pc + 1 } })

/-- 43_sequencer.md R240, 60_exceptions.md R299: NONCE draws `CFG.NONCE_LEN` bytes into an empty nonce, keeps a supplied one
as given, and moves to the next macro-step. -/
def Obligations.NonceStep : Prop :=
  ∀ s : State, s.seq.state = .run → s.macroStep? = some .nonce →
    (s.ses.nonce ≠ [] → step s = .next { s with seq := { s.seq with pc := s.seq.pc + 1 } }) ∧
    (s.ses.nonce = [] → ∃ answer, answer = s.entropyAnswer s.cfg.nonceLen ∧ answer.length = s.cfg.nonceLen ∧
      step s = .next { s with
        ses := { s.ses with nonce := answer }, env := s.env.afterEntropy s.cfg.nonceLen,
        hist := s.hist ++ [.entropy s.cfg.nonceLen answer], seq := { s.seq with pc := s.seq.pc + 1 } })

/-- 43_sequencer.md R244, R245: CAPTURE fails with `INSTRUMENT_TIMEOUT` when the instrument timed out and else moves on;
TRACE stores the samples the instrument gives, marks them valid and moves on. -/
def Obligations.CaptureAndTraceSteps : Prop :=
  ∀ s : State, s.seq.state = .run →
    (s.macroStep? = some .capture → s.captureAnswer = true →
      step s = .next (({ s with env := s.env.afterCapture, hist := s.hist ++ [.capture true] } : State).fail
        .instrumentTimeout .capture 0x00)) ∧
    (s.macroStep? = some .capture → s.captureAnswer = false → step s = .next { s with
      env := s.env.afterCapture, hist := s.hist ++ [.capture false], seq := { s.seq with pc := s.seq.pc + 1 } }) ∧
    (s.macroStep? = some .trace → step s = .next { s with
      env := s.env.afterTrace, hist := s.hist ++ [.trace s.traceAnswer],
      out := { trace := s.traceAnswer, traceValid := true }, seq := { s.seq with pc := s.seq.pc + 1 } })

/-- 43_sequencer.md R246: COMPLETE responds with the result and trace (ENCRYPT, HASH), the result (DECRYPT) or the flags
(STATUS, which also sets `STAT.VALID`), and returns to `IDLE`; nothing else changes. -/
def Obligations.CompleteStep : Prop :=
  ∀ s : State, s.seq.state = .run → s.macroStep? = some .complete →
    ((s.seq.op = .encrypt ∨ s.seq.op = .hash) → step s = .next { s with
      seq := { s.seq with state := .idle }
      hist := s.hist ++ [.respond
        { ok := true, result := s.acc.result, trace := s.out.trace, traceValid := true,
          keyIsDone := false, inputMinLen := false, flagsValid := false, err := .reset }] }) ∧
    (s.seq.op = .decrypt → step s = .next { s with
      seq := { s.seq with state := .idle }
      hist := s.hist ++ [.respond
        { ok := true, result := s.acc.result, trace := [], traceValid := false,
          keyIsDone := false, inputMinLen := false, flagsValid := false, err := .reset }] }) ∧
    (s.seq.op = .status → step s = .next { s with
      seq := { s.seq with state := .idle }, stat := { s.stat with valid := true }
      hist := s.hist ++ [.respond
        { ok := true, result := [], trace := [], traceValid := false,
          keyIsDone := s.stat.keyIsDone, inputMinLen := s.stat.inputMinLen, flagsValid := true, err := .reset }] })

/-- 42_accumulator.md R207: in state `DONE` the drain's macro-step is complete; the step only moves `SEQ.PC`, to the final
acknowledgment. -/
def Obligations.DrainDoneStep : Prop :=
  ∀ s : State, s.seq.state = .run → s.macroStep? = some .drain → s.acc.state = .done →
    step s = .next { s with seq := { s.seq with pc := s.seq.pc + 1 } } ∧
    (program s.seq.op)[(s.seq.pc + 1).toNat]? = some (.ack .finalAck)

/-! ### Invariants that every step keeps -/

/-- 43_sequencer.md R232, 60_exceptions.md R301: from a state in which `SEQ.PC` names a macro-step and no running drain is
`FAILED`, every step answers a next state of the same kind, whatever the external agents answer: no fault, no refusal. -/
def Obligations.SafeStatesStepToSafeStates : Prop :=
  ∀ s : State, s.Safe → ∃ t, step s = .next t ∧ t.Safe

/-- 10_state.md R34, 41_segmenter.md R174, 20_memory.md R87: `SEG.OFF` stays within the buffer and where its phase puts it. -/
def Obligations.StepKeepsSegmenterInvariant : Prop :=
  ∀ s t : State, s.SegOk → step s = .next t → t.SegOk

/-- 60_exceptions.md R275, R273, R274, 10_state.md R38: `ERR` is clear or records a listed cause in `IDLE`. -/
def Obligations.StepKeepsErrorRecord : Prop :=
  ∀ s t : State, s.ErrOk → step s = .next t → t.ErrOk

/-- 20_memory.md R93: after a send the next link interaction is a read. -/
def Obligations.StepKeepsSendReadAlternation : Prop :=
  ∀ s t : State, s.LinkOk → step s = .next t → t.LinkOk

/-- 10_state.md R45, 60_exceptions.md R282: no response is a partial success. -/
def Obligations.StepKeepsResponsesWhole : Prop :=
  ∀ s t : State, s.ResponsesOk → step s = .next t → t.ResponsesOk

/-- 10_state.md R35, 20_memory.md R82: the result stays within `MAX_RESULT_LEN`. -/
def Obligations.StepKeepsResultBound : Prop :=
  ∀ s t : State, s.ResultOk → step s = .next t → t.ResultOk

/-- 60_exceptions.md R298, 70_reset_and_hazards.md R311: the target is flashed once, with the binding. -/
def Obligations.StepKeepsFlashedOnce : Prop :=
  ∀ s t : State, s.FlashOk → step s = .next t → t.FlashOk

/-- The reset state meets every invariant above (70_reset_and_hazards.md R310). -/
def Obligations.ResetMeetsTheInvariants : Prop :=
  State.reset.Safe ∧ State.reset.SegOk ∧ State.reset.ErrOk ∧ State.reset.LinkOk ∧ State.reset.ResponsesOk ∧
    State.reset.ResultOk ∧ State.reset.FlashOk

/-! ### Rules about every step -/

/-- 00_scope.md R11: a step adds to the history at most one interaction, or the one of a failing step and the failure's
response; it removes nothing. -/
def Obligations.OneInteractionPerStep : Prop :=
  ∀ s t : State, step s = .next t → ∃ events, t.hist = s.hist ++ events ∧ oneInteraction events

/-- 60_exceptions.md R300, 70_reset_and_hazards.md R332: a running operation responds exactly in the step that ends it, and
nothing responds in `IDLE`. -/
def Obligations.OneResponsePerOperation : Prop :=
  ∀ s t : State, step s = .next t →
    (s.seq.state = .run → responseCount t.hist = responseCount s.hist + (if t.seq.state = .idle then 1 else 0)) ∧
    (s.seq.state = .idle → responseCount t.hist = responseCount s.hist)

/-- 00_scope.md R14, 10_state.md R30, R31: once bound, no step changes the configuration or the binding; the OPEN parameters
never change (log 3). -/
def Obligations.ConfigurationIsFixed : Prop :=
  ∀ s t : State, step s = .next t → t.par = s.par ∧ (s.bind.linkBound = true → t.cfg = s.cfg ∧ t.bind = s.bind)

/-- 60_exceptions.md R283: in `IDLE` after a construction, `ERR` and the other records of the last operation stay until a
request is accepted. -/
def Obligations.RecordsStayUntilAcceptance : Prop :=
  ∀ s t : State, s.seq.state = .idle → s.bind.linkBound = true → step s = .next t → t.seq.state = .idle →
    t = { s with env := t.env }

/-- 30_encoding.md R107: every command a step sends is one of the ten outbound instructions, and its logical frame is that
instruction's encoding. -/
def Obligations.OnlyListedCommandsAreSent : Prop :=
  ∀ (s t : State) (cmd scmd : Byte) (payload : Bytes), step s = .next t → t.hist = s.hist ++ [.send cmd scmd payload] →
    ∃ i, encode i = .cmd ([cmd, scmd, BitVec.ofNat 8 payload.length] ++ payload) ∧ payload.length ≤ 255 ∧
      (s.SegOk → i.wellFormed = true)

/-- 60_exceptions.md R297, 43_sequencer.md R261: the instrument is called only at ARM, CAPTURE and TRACE of the ENCRYPT and
HASH programs. -/
def Obligations.InstrumentCalledOnlyInItsMacroSteps : Prop :=
  ∀ (s t : State) (e : Event) (events : List Event), step s = .next t → t.hist = s.hist ++ events → e ∈ events →
    e.isInstrument = true →
    s.seq.state = .run ∧ (s.seq.op = .encrypt ∨ s.seq.op = .hash) ∧
      (e = .arm ∧ s.macroStep? = some .arm ∨ (∃ b, e = .capture b) ∧ s.macroStep? = some .capture ∨
        (∃ x, e = .trace x) ∧ s.macroStep? = some .trace)

/-- 42_accumulator.md R209: every transition of `ACC.STATE` is a listed one. -/
def Obligations.AccumulatorTransitions : Prop :=
  ∀ s t : State, step s = .next t → accTransition s.acc.state t.acc.state

/-! ### Whole macro-steps and operations -/

/-- 41_segmenter.md R181, R180, 20_memory.md R85: the chunks of a buffer are `ceil(len/100)` many, each of 1 to 100 bytes,
and in order they give the buffer back. -/
def Obligations.ChunksCoverTheBuffer : Prop :=
  ∀ buf : Bytes, (chunksOf buf).flatten = buf ∧ (chunksOf buf).length = (buf.length + 99) / 100 ∧
    ∀ c ∈ chunksOf buf, 1 ≤ c.length ∧ c.length ≤ 100

/-- 41_segmenter.md R180, R182: from the entry of an upload of a buffer within its maximum, with passing acknowledgments,
`4 + 2 * ceil(len/100)` steps send one clear and the chunks in order, each answered before the next, and complete the
macro-step; where the next one is an upload too, it is entered. What `RXF` holds at the end, and `SEG` before a macro-step
that is no upload, is left unsaid. -/
def Obligations.UploadRuns : Prop :=
  ∀ (s : State) (role : Role) (acks : List Bytes) (rest : List (Option Bytes)),
    s.seq.state = .run → s.macroStep? = some (.upload role) → s.seg = { phase := .check, role := role, off := 0 } →
    (s.ses.buffer role).length ≤ role.maxLen s.cfg →
    acks.length = 1 + ((s.ses.buffer role).length + 99) / 100 → (∀ raw ∈ acks, passesAck raw) →
    s.env.link = acks.map some ++ rest →
    ∃ t, Host.Core.run core (4 + 2 * (((s.ses.buffer role).length + 99) / 100)) s = .next t ∧
      t.hist = s.hist ++ uploadEvents role.tag (s.ses.buffer role) acks ∧
      t.seq = { s.seq with pc := s.seq.pc + 1 } ∧ t.ses = s.ses ∧ t.acc = s.acc ∧ t.err = s.err ∧ t.stat = s.stat ∧
      t.out = s.out ∧ t.cfg = s.cfg ∧ t.par = s.par ∧ t.bind = s.bind ∧ t.env = { s.env with link := rest } ∧
      ∀ next, (program s.seq.op)[s.seq.pc.toNat + 1]? = some (.upload next) →
        t.seg = { phase := .check, role := next, off := 0 }

/-- 42_accumulator.md R201, R202, R204, R210, 20_memory.md R86: from the entry of a drain, data frames within `MAX_RESULT_LEN` and
a terminator whose check passes leave `DONE` with the payloads concatenated in the order read, one step and one read for
each answer. -/
def Obligations.DrainRuns : Prop :=
  ∀ (s : State) (frames : List Bytes) (last : Bytes) (result : Bytes) (count : Byte) (rest : List (Option Bytes)),
    s.seq.state = .run → s.macroStep? = some .drain → s.acc = { state := .awaiting, result := [], nchunk := 0 } →
    resultOf frames = some result → terminatorCount last = some count →
    terminatorFails s.par.termFailOn frames.length count = false →
    (∀ m, s.par.maxResultLen = some m → result.length ≤ m) →
    s.env.link = (frames ++ [last]).map some ++ rest →
    ∃ t, Host.Core.run core (frames.length + 1) s = .next t ∧
      t.acc = { state := .done, result := result, nchunk := frames.length } ∧
      t.hist = s.hist ++ drainEvents (frames ++ [last]) ∧ t.env = { s.env with link := rest } ∧
      t.seq = s.seq ∧ t.ses = s.ses ∧ t.seg = s.seg ∧ t.err = s.err ∧ t.stat = s.stat ∧ t.out = s.out ∧
      t.cfg = s.cfg ∧ t.par = s.par ∧ t.bind = s.bind

/-- 43_sequencer.md R260, R231: an ENCRYPT whose buffers are within their maxima, whose commands are acknowledged, whose
drain delivers `result` and whose capture does not time out performs exactly the interactions of its program, in order,
ends in `IDLE` and responds with the result and the trace. That an unbound block runs it too is the model's choice
(log 5). -/
def Obligations.EncryptOperationRuns : Prop :=
  ∀ (s : State) (a : HostArgs) (acksI acksK acksA frames : List Bytes) (last final result : Bytes) (count : Byte)
    (rest : List (Option Bytes)) (cs : List Bool) (samples : List Sample) (ts : List (List Sample)),
    s.seq.state = .idle → s.hostAnswer = some (.request { op := 0, args := a }) →
    a.input.length ≤ s.cfg.maxInputLen → a.key.length ≤ s.cfg.keyLen → a.ad.length ≤ s.cfg.maxAdLen →
    a.nonce.length ≤ 255 → s.cfg.nonceLen ≤ 255 →
    acksI.length = 1 + (a.input.length + 99) / 100 → acksK.length = 1 + (a.key.length + 99) / 100 →
    acksA.length = 1 + (a.ad.length + 99) / 100 → (∀ raw ∈ acksI ++ acksK ++ acksA ++ [final], passesAck raw) →
    resultOf frames = some result → terminatorCount last = some count →
    terminatorFails s.par.termFailOn frames.length count = false →
    (∀ m, s.par.maxResultLen = some m → result.length ≤ m) →
    s.env.link = (acksI ++ acksK ++ acksA ++ frames ++ [last] ++ [final]).map some ++ rest →
    s.env.capture = false :: cs → s.env.trace = samples :: ts →
    ∃ n t nonce nonceEvents, Host.Core.run core n s = .next t ∧ t.seq = { state := .idle, op := .encrypt, pc := 11 } ∧
      (a.nonce ≠ [] ∧ nonce = a.nonce ∧ nonceEvents = [] ∨
        a.nonce = [] ∧ nonce.length = s.cfg.nonceLen ∧ nonceEvents = [Event.entropy s.cfg.nonceLen nonce]) ∧
      t.hist = s.hist ++ [.flush] ++ uploadEvents 0x69 a.input acksI ++ uploadEvents 0x6B a.key acksK ++
        uploadEvents 0x61 a.ad acksA ++ nonceEvents ++ [.arm, .send 0x70 0x01 nonce] ++ drainEvents (frames ++ [last]) ++
        [.read .ack (some final), .capture false, .trace samples, .respond
          { ok := true, result := result, trace := samples, traceValid := true, keyIsDone := false,
            inputMinLen := false, flagsValid := false, err := .reset }]

/-- 43_sequencer.md R261, R231: the same of a DECRYPT, which neither arms nor captures and responds without a trace; an
unbound block runs it too (the model's choice, log 5). -/
def Obligations.DecryptOperationRuns : Prop :=
  ∀ (s : State) (a : HostArgs) (acksI acksK acksA frames : List Bytes) (last final result : Bytes) (count : Byte)
    (rest : List (Option Bytes)),
    s.seq.state = .idle → s.hostAnswer = some (.request { op := 1, args := a }) →
    a.input.length ≤ s.cfg.maxInputLen → a.key.length ≤ s.cfg.keyLen → a.ad.length ≤ s.cfg.maxAdLen →
    a.nonce.length ≤ 255 → s.cfg.nonceLen ≤ 255 →
    acksI.length = 1 + (a.input.length + 99) / 100 → acksK.length = 1 + (a.key.length + 99) / 100 →
    acksA.length = 1 + (a.ad.length + 99) / 100 → (∀ raw ∈ acksI ++ acksK ++ acksA ++ [final], passesAck raw) →
    resultOf frames = some result → terminatorCount last = some count →
    terminatorFails s.par.termFailOn frames.length count = false →
    (∀ m, s.par.maxResultLen = some m → result.length ≤ m) →
    s.env.link = (acksI ++ acksK ++ acksA ++ frames ++ [last] ++ [final]).map some ++ rest →
    ∃ n t nonce nonceEvents, Host.Core.run core n s = .next t ∧ t.seq = { state := .idle, op := .decrypt, pc := 8 } ∧
      (a.nonce ≠ [] ∧ nonce = a.nonce ∧ nonceEvents = [] ∨
        a.nonce = [] ∧ nonce.length = s.cfg.nonceLen ∧ nonceEvents = [Event.entropy s.cfg.nonceLen nonce]) ∧
      t.hist = s.hist ++ [.flush] ++ uploadEvents 0x69 a.input acksI ++ uploadEvents 0x6B a.key acksK ++
        uploadEvents 0x61 a.ad acksA ++ nonceEvents ++ [.send 0x70 0x00 nonce] ++ drainEvents (frames ++ [last]) ++
        [.read .ack (some final), .respond
          { ok := true, result := result, trace := [], traceValid := false, keyIsDone := false,
            inputMinLen := false, flagsValid := false, err := .reset }]

/-- 43_sequencer.md R262, R231: the same of a HASH, which uploads only the input and draws no nonce; an unbound block runs
it too (the model's choice, log 5). -/
def Obligations.HashOperationRuns : Prop :=
  ∀ (s : State) (a : HostArgs) (acks frames : List Bytes) (last final result : Bytes) (count : Byte)
    (rest : List (Option Bytes)) (cs : List Bool) (samples : List Sample) (ts : List (List Sample)),
    s.seq.state = .idle → s.hostAnswer = some (.request { op := 2, args := a }) →
    a.input.length ≤ s.cfg.maxInputLen → acks.length = 1 + (a.input.length + 99) / 100 →
    (∀ raw ∈ acks ++ [final], passesAck raw) → resultOf frames = some result → terminatorCount last = some count →
    terminatorFails s.par.termFailOn frames.length count = false →
    (∀ m, s.par.maxResultLen = some m → result.length ≤ m) →
    s.env.link = (acks ++ frames ++ [last] ++ [final]).map some ++ rest →
    s.env.capture = false :: cs → s.env.trace = samples :: ts →
    ∃ n t, Host.Core.run core n s = .next t ∧ t.seq = { state := .idle, op := .hash, pc := 8 } ∧
      t.hist = s.hist ++ [.flush] ++ uploadEvents 0x69 a.input acks ++ [.arm, .send 0x68 0x00 []] ++
        drainEvents (frames ++ [last]) ++ [.read .ack (some final), .capture false, .trace samples, .respond
          { ok := true, result := result, trace := samples, traceValid := true, keyIsDone := false,
            inputMinLen := false, flagsValid := false, err := .reset }]

/-- 43_sequencer.md R263, R231, R251: a STATUS whose data frame has two flag bytes and whose acknowledgment passes takes six
steps and responds with the flags; an unbound block runs it too (the model's choice, log 5). -/
def Obligations.StatusOperationRuns : Prop :=
  ∀ (s : State) (a : HostArgs) (data final payload : Bytes) (k m : Byte)
    (rest : List (Option Bytes)),
    s.seq.state = .idle → s.hostAnswer = some (.request { op := 3, args := a }) →
    dataPayload data = some payload → payload[0]? = some k → payload[1]? = some m → passesAck final →
    s.env.link = some data :: some final :: rest →
    ∃ t, Host.Core.run core 6 s = .next t ∧ t.seq = { state := .idle, op := .status, pc := 4 } ∧
      t.stat = { keyIsDone := decide (k ≠ 0x00), inputMinLen := decide (m ≠ 0x00), valid := true } ∧
      t.hist = s.hist ++ [.flush, .send 0x73 0x00 [], .read .cmd (some data), .read .ack (some final), .respond
        { ok := true, result := [], trace := [], traceValid := false, keyIsDone := decide (k ≠ 0x00),
          inputMinLen := decide (m ≠ 0x00), flagsValid := true, err := .reset }]

/-! ### The macro-steps that start the target -/

/-- 43_sequencer.md R242, R243, R250: in `RUN`, PERFORM_ENC and PERFORM_DEC send `SES.NONCE`, PERFORM_HASH and SEND_STATUS
send their command without payload, and each step advances, the first three into a DRAIN that they enter; nothing else
changes. A nonce longer than 255 bytes fails before any byte is sent. -/
def Obligations.PerformAndStatusSteps : Prop :=
  ∀ s : State, s.seq.state = .run →
    (s.macroStep? = some .performEnc → step s =
      if s.ses.nonce.length ≤ 255 then .next { s with
        hist := s.hist ++ [.send 0x70 0x01 s.ses.nonce], seq := { s.seq with pc := s.seq.pc + 1 },
        acc := { state := .awaiting, result := [], nchunk := 0 } }
      else .next (s.fail .payloadTooLong .perform 0x00)) ∧
    (s.macroStep? = some .performDec → step s =
      if s.ses.nonce.length ≤ 255 then .next { s with
        hist := s.hist ++ [.send 0x70 0x00 s.ses.nonce], seq := { s.seq with pc := s.seq.pc + 1 },
        acc := { state := .awaiting, result := [], nchunk := 0 } }
      else .next (s.fail .payloadTooLong .perform 0x00)) ∧
    (s.macroStep? = some .performHash → step s = .next { s with
      hist := s.hist ++ [.send 0x68 0x00 []], seq := { s.seq with pc := s.seq.pc + 1 },
      acc := { state := .awaiting, result := [], nchunk := 0 } }) ∧
    (s.macroStep? = some .sendStatus → step s = .next { s with
      hist := s.hist ++ [.send 0x73 0x00 []], seq := { s.seq with pc := s.seq.pc + 1 } })
end

