-- ==== Sys2Proof/Laws/Encoding.lean ====
section
/-! SUPPORT. The small lemmas of the well-formedness checks and of the encodings. -/

namespace Sys2Proof

theorem chunkOk_iff (c : Bytes) : chunkOk c = true ↔ 1 ≤ c.length ∧ c.length ≤ 100 := by
  simp only [chunkOk, Bool.and_eq_true, decide_eq_true_eq]; rfl

theorem nonceOk_iff (n : Bytes) : nonceOk n = true ↔ n.length ≤ 255 := by
  simp only [nonceOk, decide_eq_true_eq]; rfl

theorem frameOk_iff (f : Frame) :
    frameOk f = true ↔ f.trailer.length = 2 ∨ (f.payload = [] ∧ f.trailer.length = 1) := by
  simp only [frameOk, Bool.or_eq_true, Bool.and_eq_true, decide_eq_true_eq, List.isEmpty_iff]; rfl

@[simp] theorem slice_zero (s : Bytes) (j : Nat) : slice s 0 j = s.take j := rfl

theorem slice_eq_take_drop (s : Bytes) (i j : Nat) : slice s i j = (s.drop i).take (j - i) := by
  unfold slice; rw [List.drop_take]

/-- A logical frame within the encoder's bound decodes by its command pair (30_encoding.md R100). -/
theorem decodeCmd_logicalFrame (cmd scmd : Byte) (payload : Bytes) (h : payload.length ≤ 255) :
    decodeCmd (logicalFrame cmd scmd payload) = selectCommand cmd scmd payload := by
  have hl : payload.length = (BitVec.ofNat 8 payload.length).toNat := by
    simp only [BitVec.toNat_ofNat]; omega
  simp only [logicalFrame, decodeCmd]
  rw [if_pos hl]

/-- The encoding of a well-formed outbound command is a logical frame whose payload the encoder accepts. -/
theorem encode_cmd_isLogicalFrame {i : Instr} {frame : Bytes} (h : i.wellFormed = true) (he : encode i = .cmd frame) :
    ∃ cmd scmd payload, payload.length ≤ maxCmdPayload ∧ frame = logicalFrame cmd scmd payload := by
  have chunk : ∀ c, chunkOk c = true → c.length ≤ maxCmdPayload := fun c hc =>
    ((chunkOk_iff c).1 hc).2.trans (by decide)
  cases i <;> cases he <;> refine ⟨_, _, _, ?_, rfl⟩ <;>
    first | exact Nat.zero_le _ | exact chunk _ h | exact (nonceOk_iff _).1 h

/-- What a conforming `WIRE_WRAP` recovers: the frame of every well-formed outbound command (40_frame_codec.md R141). -/
theorem WireWrap.unwrap_wrap_of_encode (w : WireWrap) {i : Instr} {frame : Bytes} (h : i.wellFormed = true)
    (he : encode i = .cmd frame) : w.unwrap (w.wrap frame) = frame := by
  obtain ⟨cmd, scmd, payload, hp, rfl⟩ := encode_cmd_isLogicalFrame h he
  exact w.unwrap_wrap cmd scmd payload hp

/-- A command without payload accepts only the empty one. -/
theorem withoutPayload_ok {i j : Instr} {payload : Bytes} (h : withoutPayload i payload = .ok j) :
    i = j ∧ payload = [] := by
  unfold withoutPayload at h
  split at h <;> cases h
  exact ⟨rfl, by assumption⟩

/-- A raw read of at least `FRAME_MIN` bytes is split by position (40_frame_codec.md R142). -/
theorem splitFrame_of_le (start tag declLen : Byte) (rest : Bytes) (h : 1 ≤ rest.length) :
    splitFrame (start :: tag :: declLen :: rest) = some (tag,
      { start := start, declLen := declLen,
        payload := slice (start :: tag :: declLen :: rest) 3 (rest.length + 1),
        trailer := (start :: tag :: declLen :: rest).drop (max 3 (rest.length + 1)) }) := by
  have hn : ¬ (start :: tag :: declLen :: rest).length < frameMin := by
    show ¬ rest.length + 3 < 4
    omega
  have hl : (start :: tag :: declLen :: rest).length - trailerLen = rest.length + 1 := by
    show rest.length + 3 - 2 = rest.length + 1
    omega
  show (if _ then _ else _) = _
  rw [if_neg hn, hl]
  rfl

/-- A shorter read is unfilled (40_frame_codec.md R142). -/
theorem splitFrame_of_lt (raw : Bytes) (h : raw.length < 4) : splitFrame raw = none := by
  unfold splitFrame
  split
  · exact if_pos h
  · rfl

end Sys2Proof
end

