-- ==== Sys2Proof/Laws/Flags.lean ====
section
/-! SUPPORT. The flag computations as propositions. -/

namespace Sys2Proof.Machine

@[simp] theorem flagOf_eq (b : Byte) : flagOf b = decide (b ≠ 0) := rfl

theorem countMismatch_iff (n : Nat) (c : Byte) : countMismatch n c = true ↔ n % 256 ≠ c.toNat := by
  simp only [countMismatch, decide_eq_true_eq]; rfl

/-- The two polarities of the terminator check (42_accumulator.md R204). -/
theorem terminatorFails_iff (failOn : TermFailOn) (n : Nat) (c : Byte) :
    terminatorFails failOn n c = true ↔
      (failOn = .mismatch ∧ n % 256 ≠ c.toNat) ∨ (failOn = .equal ∧ n % 256 = c.toNat) := by
  cases failOn
  · simp [terminatorFails, countMismatch_iff]
  · have := countMismatch_iff n c
    cases h : countMismatch n c <;> simp_all [terminatorFails]

/-- A payload overflows only a bounded result (42_accumulator.md R203). -/
theorem resultOverflows_iff (maxLen : Option Nat) (n k : Nat) :
    resultOverflows maxLen n k = true ↔ ∃ m, maxLen = some m ∧ m < n + k := by
  cases maxLen <;> simp [resultOverflows]

theorem resultOverflows_false_iff (maxLen : Option Nat) (n k : Nat) :
    resultOverflows maxLen n k = false ↔ ∀ m, maxLen = some m → n + k ≤ m := by
  cases maxLen <;> simp [resultOverflows]

theorem errKnown_iff (par : Params) (cls : ErrClass) (code : Byte) :
    errKnown par cls code = true ↔ cls = .protocol ∧ (statusName par code).isSome = true := by
  simp [errKnown]

/-- 0x00 has no error name (00_scope.md R13). -/
@[simp] theorem statusName_zero (par : Params) : statusName par 0 = none := rfl

end Sys2Proof.Machine
end

