-- ==== Sys2Proof/Laws/State.lean ====
section
/-! SUPPORT. One lemma per field of `State` per update: what each named operation leaves in it. -/

namespace Sys2Proof.Machine

variable (s : State)

/-! ### `emit` -/

@[simp] theorem State.emit_cfg (e : Event) : (s.emit e).cfg = s.cfg := rfl
@[simp] theorem State.emit_bind (e : Event) : (s.emit e).bind = s.bind := rfl
@[simp] theorem State.emit_seq (e : Event) : (s.emit e).seq = s.seq := rfl
@[simp] theorem State.emit_ses (e : Event) : (s.emit e).ses = s.ses := rfl
@[simp] theorem State.emit_seg (e : Event) : (s.emit e).seg = s.seg := rfl
@[simp] theorem State.emit_acc (e : Event) : (s.emit e).acc = s.acc := rfl
@[simp] theorem State.emit_rxf (e : Event) : (s.emit e).rxf = s.rxf := rfl
@[simp] theorem State.emit_stat (e : Event) : (s.emit e).stat = s.stat := rfl
@[simp] theorem State.emit_err (e : Event) : (s.emit e).err = s.err := rfl
@[simp] theorem State.emit_out (e : Event) : (s.emit e).out = s.out := rfl
@[simp] theorem State.emit_par (e : Event) : (s.emit e).par = s.par := rfl
@[simp] theorem State.emit_env (e : Event) : (s.emit e).env = s.env := rfl
@[simp] theorem State.emit_hist (e : Event) : (s.emit e).hist = s.hist ++ [e] := rfl
@[simp] theorem State.emit_macroStep (e : Event) : (s.emit e).macroStep? = s.macroStep? := rfl

/-! ### `bumpPc` -/

@[simp] theorem State.bumpPc_cfg : s.bumpPc.cfg = s.cfg := rfl
@[simp] theorem State.bumpPc_bind : s.bumpPc.bind = s.bind := rfl
@[simp] theorem State.bumpPc_seq : s.bumpPc.seq = { s.seq with pc := s.seq.pc + 1 } := rfl
@[simp] theorem State.bumpPc_ses : s.bumpPc.ses = s.ses := rfl
@[simp] theorem State.bumpPc_seg : s.bumpPc.seg = s.seg := rfl
@[simp] theorem State.bumpPc_acc : s.bumpPc.acc = s.acc := rfl
@[simp] theorem State.bumpPc_rxf : s.bumpPc.rxf = s.rxf := rfl
@[simp] theorem State.bumpPc_stat : s.bumpPc.stat = s.stat := rfl
@[simp] theorem State.bumpPc_err : s.bumpPc.err = s.err := rfl
@[simp] theorem State.bumpPc_out : s.bumpPc.out = s.out := rfl
@[simp] theorem State.bumpPc_par : s.bumpPc.par = s.par := rfl
@[simp] theorem State.bumpPc_env : s.bumpPc.env = s.env := rfl
@[simp] theorem State.bumpPc_hist : s.bumpPc.hist = s.hist := rfl

/-! ### `fail` -/

@[simp] theorem State.fail_cfg (cls : ErrClass) (stage : Stage) (code : Byte) : (s.fail cls stage code).cfg = s.cfg := rfl
@[simp] theorem State.fail_bind (cls : ErrClass) (stage : Stage) (code : Byte) : (s.fail cls stage code).bind = s.bind := rfl
@[simp] theorem State.fail_seq (cls : ErrClass) (stage : Stage) (code : Byte) : (s.fail cls stage code).seq = { s.seq with state := .idle } := rfl
@[simp] theorem State.fail_ses (cls : ErrClass) (stage : Stage) (code : Byte) : (s.fail cls stage code).ses = s.ses := rfl
@[simp] theorem State.fail_seg (cls : ErrClass) (stage : Stage) (code : Byte) : (s.fail cls stage code).seg = s.seg := rfl
@[simp] theorem State.fail_acc (cls : ErrClass) (stage : Stage) (code : Byte) : (s.fail cls stage code).acc = if s.macroStep? = some .drain then { s.acc with state := .failed } else s.acc := rfl
@[simp] theorem State.fail_rxf (cls : ErrClass) (stage : Stage) (code : Byte) : (s.fail cls stage code).rxf = s.rxf := rfl
@[simp] theorem State.fail_stat (cls : ErrClass) (stage : Stage) (code : Byte) : (s.fail cls stage code).stat = s.stat := rfl
@[simp] theorem State.fail_err (cls : ErrClass) (stage : Stage) (code : Byte) : (s.fail cls stage code).err = failRecord s.par cls stage code := rfl
@[simp] theorem State.fail_out (cls : ErrClass) (stage : Stage) (code : Byte) : (s.fail cls stage code).out = s.out := rfl
@[simp] theorem State.fail_par (cls : ErrClass) (stage : Stage) (code : Byte) : (s.fail cls stage code).par = s.par := rfl
@[simp] theorem State.fail_env (cls : ErrClass) (stage : Stage) (code : Byte) : (s.fail cls stage code).env = s.env := rfl
@[simp] theorem State.fail_hist (cls : ErrClass) (stage : Stage) (code : Byte) : (s.fail cls stage code).hist = s.hist ++ [.respond (failResponse (failRecord s.par cls stage code))] := rfl

/-! ### `accept` -/

@[simp] theorem State.accept_cfg (op : HostOp) (a : HostArgs) : (s.accept op a).cfg = s.cfg := rfl
@[simp] theorem State.accept_bind (op : HostOp) (a : HostArgs) : (s.accept op a).bind = s.bind := rfl
@[simp] theorem State.accept_seq (op : HostOp) (a : HostArgs) : (s.accept op a).seq = { state := .run, op := op, pc := 0 } := rfl
@[simp] theorem State.accept_ses (op : HostOp) (a : HostArgs) : (s.accept op a).ses = { input := a.input, key := a.key, ad := a.ad, nonce := a.nonce } := rfl
@[simp] theorem State.accept_seg (op : HostOp) (a : HostArgs) : (s.accept op a).seg = .reset := rfl
@[simp] theorem State.accept_acc (op : HostOp) (a : HostArgs) : (s.accept op a).acc = .reset := rfl
@[simp] theorem State.accept_rxf (op : HostOp) (a : HostArgs) : (s.accept op a).rxf = s.rxf := rfl
@[simp] theorem State.accept_stat (op : HostOp) (a : HostArgs) : (s.accept op a).stat = .reset := rfl
@[simp] theorem State.accept_err (op : HostOp) (a : HostArgs) : (s.accept op a).err = .reset := rfl
@[simp] theorem State.accept_out (op : HostOp) (a : HostArgs) : (s.accept op a).out = .reset := rfl
@[simp] theorem State.accept_par (op : HostOp) (a : HostArgs) : (s.accept op a).par = s.par := rfl
@[simp] theorem State.accept_env (op : HostOp) (a : HostArgs) : (s.accept op a).env = s.env := rfl
@[simp] theorem State.accept_hist (op : HostOp) (a : HostArgs) : (s.accept op a).hist = s.hist := rfl

/-! ### `hold` -/

@[simp] theorem State.hold_cfg (op : BitVec 2) (a : HostArgs) : (s.hold op a).cfg = s.cfg := rfl
@[simp] theorem State.hold_bind (op : BitVec 2) (a : HostArgs) : (s.hold op a).bind = s.bind := rfl
@[simp] theorem State.hold_seq (op : BitVec 2) (a : HostArgs) : (s.hold op a).seq = s.seq := rfl
@[simp] theorem State.hold_ses (op : BitVec 2) (a : HostArgs) : (s.hold op a).ses = s.ses := rfl
@[simp] theorem State.hold_seg (op : BitVec 2) (a : HostArgs) : (s.hold op a).seg = s.seg := rfl
@[simp] theorem State.hold_acc (op : BitVec 2) (a : HostArgs) : (s.hold op a).acc = s.acc := rfl
@[simp] theorem State.hold_rxf (op : BitVec 2) (a : HostArgs) : (s.hold op a).rxf = s.rxf := rfl
@[simp] theorem State.hold_stat (op : BitVec 2) (a : HostArgs) : (s.hold op a).stat = s.stat := rfl
@[simp] theorem State.hold_err (op : BitVec 2) (a : HostArgs) : (s.hold op a).err = s.err := rfl
@[simp] theorem State.hold_out (op : BitVec 2) (a : HostArgs) : (s.hold op a).out = s.out := rfl
@[simp] theorem State.hold_par (op : BitVec 2) (a : HostArgs) : (s.hold op a).par = s.par := rfl
@[simp] theorem State.hold_env (op : BitVec 2) (a : HostArgs) : (s.hold op a).env = { s.env with held := s.env.held ++ [{ op := op, args := a }] } := rfl
@[simp] theorem State.hold_hist (op : BitVec 2) (a : HostArgs) : (s.hold op a).hist = s.hist := rfl
@[simp] theorem State.hold_macroStep (op : BitVec 2) (a : HostArgs) : (s.hold op a).macroStep? = s.macroStep? := rfl

/-! ### `latchFrame` -/

@[simp] theorem State.latchFrame_cfg (tag : Byte) (f : Frame) : (s.latchFrame tag f).cfg = s.cfg := rfl
@[simp] theorem State.latchFrame_bind (tag : Byte) (f : Frame) : (s.latchFrame tag f).bind = s.bind := rfl
@[simp] theorem State.latchFrame_seq (tag : Byte) (f : Frame) : (s.latchFrame tag f).seq = s.seq := rfl
@[simp] theorem State.latchFrame_ses (tag : Byte) (f : Frame) : (s.latchFrame tag f).ses = s.ses := rfl
@[simp] theorem State.latchFrame_seg (tag : Byte) (f : Frame) : (s.latchFrame tag f).seg = s.seg := rfl
@[simp] theorem State.latchFrame_acc (tag : Byte) (f : Frame) : (s.latchFrame tag f).acc = s.acc := rfl
@[simp] theorem State.latchFrame_rxf (tag : Byte) (f : Frame) : (s.latchFrame tag f).rxf = { filled := true, cmd := tag, declLen := f.declLen, payload := f.payload, rawLen := f.rawLen } := rfl
@[simp] theorem State.latchFrame_stat (tag : Byte) (f : Frame) : (s.latchFrame tag f).stat = s.stat := rfl
@[simp] theorem State.latchFrame_err (tag : Byte) (f : Frame) : (s.latchFrame tag f).err = s.err := rfl
@[simp] theorem State.latchFrame_out (tag : Byte) (f : Frame) : (s.latchFrame tag f).out = s.out := rfl
@[simp] theorem State.latchFrame_par (tag : Byte) (f : Frame) : (s.latchFrame tag f).par = s.par := rfl
@[simp] theorem State.latchFrame_env (tag : Byte) (f : Frame) : (s.latchFrame tag f).env = s.env := rfl
@[simp] theorem State.latchFrame_hist (tag : Byte) (f : Frame) : (s.latchFrame tag f).hist = s.hist := rfl
@[simp] theorem State.latchFrame_macroStep (tag : Byte) (f : Frame) : (s.latchFrame tag f).macroStep? = s.macroStep? := rfl

/-! ### `latchUnfilled` -/

@[simp] theorem State.latchUnfilled_cfg (n : Nat) : (s.latchUnfilled n).cfg = s.cfg := rfl
@[simp] theorem State.latchUnfilled_bind (n : Nat) : (s.latchUnfilled n).bind = s.bind := rfl
@[simp] theorem State.latchUnfilled_seq (n : Nat) : (s.latchUnfilled n).seq = s.seq := rfl
@[simp] theorem State.latchUnfilled_ses (n : Nat) : (s.latchUnfilled n).ses = s.ses := rfl
@[simp] theorem State.latchUnfilled_seg (n : Nat) : (s.latchUnfilled n).seg = s.seg := rfl
@[simp] theorem State.latchUnfilled_acc (n : Nat) : (s.latchUnfilled n).acc = s.acc := rfl
@[simp] theorem State.latchUnfilled_rxf (n : Nat) : (s.latchUnfilled n).rxf = { filled := false, cmd := 0, declLen := 0, payload := [], rawLen := n } := rfl
@[simp] theorem State.latchUnfilled_stat (n : Nat) : (s.latchUnfilled n).stat = s.stat := rfl
@[simp] theorem State.latchUnfilled_err (n : Nat) : (s.latchUnfilled n).err = s.err := rfl
@[simp] theorem State.latchUnfilled_out (n : Nat) : (s.latchUnfilled n).out = s.out := rfl
@[simp] theorem State.latchUnfilled_par (n : Nat) : (s.latchUnfilled n).par = s.par := rfl
@[simp] theorem State.latchUnfilled_env (n : Nat) : (s.latchUnfilled n).env = s.env := rfl
@[simp] theorem State.latchUnfilled_hist (n : Nat) : (s.latchUnfilled n).hist = s.hist := rfl
@[simp] theorem State.latchUnfilled_macroStep (n : Nat) : (s.latchUnfilled n).macroStep? = s.macroStep? := rfl

/-! ### `setPhase` -/

@[simp] theorem State.setPhase_cfg (p : SegPhase) : (s.setPhase p).cfg = s.cfg := rfl
@[simp] theorem State.setPhase_bind (p : SegPhase) : (s.setPhase p).bind = s.bind := rfl
@[simp] theorem State.setPhase_seq (p : SegPhase) : (s.setPhase p).seq = s.seq := rfl
@[simp] theorem State.setPhase_ses (p : SegPhase) : (s.setPhase p).ses = s.ses := rfl
@[simp] theorem State.setPhase_seg (p : SegPhase) : (s.setPhase p).seg = { s.seg with phase := p } := rfl
@[simp] theorem State.setPhase_acc (p : SegPhase) : (s.setPhase p).acc = s.acc := rfl
@[simp] theorem State.setPhase_rxf (p : SegPhase) : (s.setPhase p).rxf = s.rxf := rfl
@[simp] theorem State.setPhase_stat (p : SegPhase) : (s.setPhase p).stat = s.stat := rfl
@[simp] theorem State.setPhase_err (p : SegPhase) : (s.setPhase p).err = s.err := rfl
@[simp] theorem State.setPhase_out (p : SegPhase) : (s.setPhase p).out = s.out := rfl
@[simp] theorem State.setPhase_par (p : SegPhase) : (s.setPhase p).par = s.par := rfl
@[simp] theorem State.setPhase_env (p : SegPhase) : (s.setPhase p).env = s.env := rfl
@[simp] theorem State.setPhase_hist (p : SegPhase) : (s.setPhase p).hist = s.hist := rfl
@[simp] theorem State.setPhase_macroStep (p : SegPhase) : (s.setPhase p).macroStep? = s.macroStep? := rfl

/-! ### `appended` -/

@[simp] theorem State.appended_cfg (n : Nat) : (s.appended n).cfg = s.cfg := rfl
@[simp] theorem State.appended_bind (n : Nat) : (s.appended n).bind = s.bind := rfl
@[simp] theorem State.appended_seq (n : Nat) : (s.appended n).seq = s.seq := rfl
@[simp] theorem State.appended_ses (n : Nat) : (s.appended n).ses = s.ses := rfl
@[simp] theorem State.appended_seg (n : Nat) : (s.appended n).seg = { s.seg with phase := .ackAppend, off := s.seg.off + n } := rfl
@[simp] theorem State.appended_acc (n : Nat) : (s.appended n).acc = s.acc := rfl
@[simp] theorem State.appended_rxf (n : Nat) : (s.appended n).rxf = s.rxf := rfl
@[simp] theorem State.appended_stat (n : Nat) : (s.appended n).stat = s.stat := rfl
@[simp] theorem State.appended_err (n : Nat) : (s.appended n).err = s.err := rfl
@[simp] theorem State.appended_out (n : Nat) : (s.appended n).out = s.out := rfl
@[simp] theorem State.appended_par (n : Nat) : (s.appended n).par = s.par := rfl
@[simp] theorem State.appended_env (n : Nat) : (s.appended n).env = s.env := rfl
@[simp] theorem State.appended_hist (n : Nat) : (s.appended n).hist = s.hist := rfl
@[simp] theorem State.appended_macroStep (n : Nat) : (s.appended n).macroStep? = s.macroStep? := rfl

/-! ### `afterRead` -/

@[simp] theorem State.afterRead_cfg (tc : TimeoutClass) : (s.afterRead tc).cfg = s.cfg := rfl
@[simp] theorem State.afterRead_bind (tc : TimeoutClass) : (s.afterRead tc).bind = s.bind := rfl
@[simp] theorem State.afterRead_seq (tc : TimeoutClass) : (s.afterRead tc).seq = s.seq := rfl
@[simp] theorem State.afterRead_ses (tc : TimeoutClass) : (s.afterRead tc).ses = s.ses := rfl
@[simp] theorem State.afterRead_seg (tc : TimeoutClass) : (s.afterRead tc).seg = s.seg := rfl
@[simp] theorem State.afterRead_acc (tc : TimeoutClass) : (s.afterRead tc).acc = s.acc := rfl
@[simp] theorem State.afterRead_rxf (tc : TimeoutClass) : (s.afterRead tc).rxf = s.rxf := rfl
@[simp] theorem State.afterRead_stat (tc : TimeoutClass) : (s.afterRead tc).stat = s.stat := rfl
@[simp] theorem State.afterRead_err (tc : TimeoutClass) : (s.afterRead tc).err = s.err := rfl
@[simp] theorem State.afterRead_out (tc : TimeoutClass) : (s.afterRead tc).out = s.out := rfl
@[simp] theorem State.afterRead_par (tc : TimeoutClass) : (s.afterRead tc).par = s.par := rfl
@[simp] theorem State.afterRead_env (tc : TimeoutClass) : (s.afterRead tc).env = s.env.afterLink := rfl
@[simp] theorem State.afterRead_hist (tc : TimeoutClass) : (s.afterRead tc).hist = s.hist ++ [.read tc s.linkAnswer] := rfl
@[simp] theorem State.afterRead_macroStep (tc : TimeoutClass) : (s.afterRead tc).macroStep? = s.macroStep? := rfl

/-! ### `afterHost` -/

@[simp] theorem State.afterHost_cfg : s.afterHost.cfg = s.cfg := rfl
@[simp] theorem State.afterHost_bind : s.afterHost.bind = s.bind := rfl
@[simp] theorem State.afterHost_seq : s.afterHost.seq = s.seq := rfl
@[simp] theorem State.afterHost_ses : s.afterHost.ses = s.ses := rfl
@[simp] theorem State.afterHost_seg : s.afterHost.seg = s.seg := rfl
@[simp] theorem State.afterHost_acc : s.afterHost.acc = s.acc := rfl
@[simp] theorem State.afterHost_rxf : s.afterHost.rxf = s.rxf := rfl
@[simp] theorem State.afterHost_stat : s.afterHost.stat = s.stat := rfl
@[simp] theorem State.afterHost_err : s.afterHost.err = s.err := rfl
@[simp] theorem State.afterHost_out : s.afterHost.out = s.out := rfl
@[simp] theorem State.afterHost_par : s.afterHost.par = s.par := rfl
@[simp] theorem State.afterHost_env : s.afterHost.env = s.env.afterHost := rfl
@[simp] theorem State.afterHost_hist : s.afterHost.hist = s.hist := rfl
@[simp] theorem State.afterHost_macroStep : s.afterHost.macroStep? = s.macroStep? := rfl

/-! ### `drawNonce` -/

@[simp] theorem State.drawNonce_cfg (n : Nat) : (s.drawNonce n).cfg = s.cfg := rfl
@[simp] theorem State.drawNonce_bind (n : Nat) : (s.drawNonce n).bind = s.bind := rfl
@[simp] theorem State.drawNonce_seq (n : Nat) : (s.drawNonce n).seq = s.seq := rfl
@[simp] theorem State.drawNonce_ses (n : Nat) : (s.drawNonce n).ses = { s.ses with nonce := s.entropyAnswer n } := rfl
@[simp] theorem State.drawNonce_seg (n : Nat) : (s.drawNonce n).seg = s.seg := rfl
@[simp] theorem State.drawNonce_acc (n : Nat) : (s.drawNonce n).acc = s.acc := rfl
@[simp] theorem State.drawNonce_rxf (n : Nat) : (s.drawNonce n).rxf = s.rxf := rfl
@[simp] theorem State.drawNonce_stat (n : Nat) : (s.drawNonce n).stat = s.stat := rfl
@[simp] theorem State.drawNonce_err (n : Nat) : (s.drawNonce n).err = s.err := rfl
@[simp] theorem State.drawNonce_out (n : Nat) : (s.drawNonce n).out = s.out := rfl
@[simp] theorem State.drawNonce_par (n : Nat) : (s.drawNonce n).par = s.par := rfl
@[simp] theorem State.drawNonce_env (n : Nat) : (s.drawNonce n).env = s.env.afterEntropy n := rfl
@[simp] theorem State.drawNonce_hist (n : Nat) : (s.drawNonce n).hist = s.hist ++ [.entropy n (s.entropyAnswer n)] := rfl
@[simp] theorem State.drawNonce_macroStep (n : Nat) : (s.drawNonce n).macroStep? = s.macroStep? := rfl

/-! ### `afterCapture` -/

@[simp] theorem State.afterCapture_cfg : s.afterCapture.cfg = s.cfg := rfl
@[simp] theorem State.afterCapture_bind : s.afterCapture.bind = s.bind := rfl
@[simp] theorem State.afterCapture_seq : s.afterCapture.seq = s.seq := rfl
@[simp] theorem State.afterCapture_ses : s.afterCapture.ses = s.ses := rfl
@[simp] theorem State.afterCapture_seg : s.afterCapture.seg = s.seg := rfl
@[simp] theorem State.afterCapture_acc : s.afterCapture.acc = s.acc := rfl
@[simp] theorem State.afterCapture_rxf : s.afterCapture.rxf = s.rxf := rfl
@[simp] theorem State.afterCapture_stat : s.afterCapture.stat = s.stat := rfl
@[simp] theorem State.afterCapture_err : s.afterCapture.err = s.err := rfl
@[simp] theorem State.afterCapture_out : s.afterCapture.out = s.out := rfl
@[simp] theorem State.afterCapture_par : s.afterCapture.par = s.par := rfl
@[simp] theorem State.afterCapture_env : s.afterCapture.env = s.env.afterCapture := rfl
@[simp] theorem State.afterCapture_hist : s.afterCapture.hist = s.hist ++ [.capture s.captureAnswer] := rfl
@[simp] theorem State.afterCapture_macroStep : s.afterCapture.macroStep? = s.macroStep? := rfl

/-! ### `afterTrace` -/

@[simp] theorem State.afterTrace_cfg : s.afterTrace.cfg = s.cfg := rfl
@[simp] theorem State.afterTrace_bind : s.afterTrace.bind = s.bind := rfl
@[simp] theorem State.afterTrace_seq : s.afterTrace.seq = s.seq := rfl
@[simp] theorem State.afterTrace_ses : s.afterTrace.ses = s.ses := rfl
@[simp] theorem State.afterTrace_seg : s.afterTrace.seg = s.seg := rfl
@[simp] theorem State.afterTrace_acc : s.afterTrace.acc = s.acc := rfl
@[simp] theorem State.afterTrace_rxf : s.afterTrace.rxf = s.rxf := rfl
@[simp] theorem State.afterTrace_stat : s.afterTrace.stat = s.stat := rfl
@[simp] theorem State.afterTrace_err : s.afterTrace.err = s.err := rfl
@[simp] theorem State.afterTrace_out : s.afterTrace.out = { trace := s.traceAnswer, traceValid := true } := rfl
@[simp] theorem State.afterTrace_par : s.afterTrace.par = s.par := rfl
@[simp] theorem State.afterTrace_env : s.afterTrace.env = s.env.afterTrace := rfl
@[simp] theorem State.afterTrace_hist : s.afterTrace.hist = s.hist ++ [.trace s.traceAnswer] := rfl
@[simp] theorem State.afterTrace_macroStep : s.afterTrace.macroStep? = s.macroStep? := rfl

/-! ### `completeStep` -/

@[simp] theorem State.completeStep_cfg : s.completeStep.cfg = s.cfg := rfl
@[simp] theorem State.completeStep_bind : s.completeStep.bind = s.bind := rfl
@[simp] theorem State.completeStep_seq : s.completeStep.seq = { s.seq with state := .idle } := rfl
@[simp] theorem State.completeStep_ses : s.completeStep.ses = s.ses := rfl
@[simp] theorem State.completeStep_seg : s.completeStep.seg = s.seg := rfl
@[simp] theorem State.completeStep_acc : s.completeStep.acc = s.acc := rfl
@[simp] theorem State.completeStep_rxf : s.completeStep.rxf = s.rxf := rfl
@[simp] theorem State.completeStep_stat : s.completeStep.stat = if s.seq.op = .status then { s.stat with valid := true } else s.stat := rfl
@[simp] theorem State.completeStep_err : s.completeStep.err = s.err := rfl
@[simp] theorem State.completeStep_out : s.completeStep.out = s.out := rfl
@[simp] theorem State.completeStep_par : s.completeStep.par = s.par := rfl
@[simp] theorem State.completeStep_env : s.completeStep.env = s.env := rfl
@[simp] theorem State.completeStep_hist : s.completeStep.hist = s.hist ++ [.respond s.completeResponse] := rfl

end Sys2Proof.Machine
end

