-- ==== Sys2Proof/Laws/Ops.lean ====
section
/-! SUPPORT. What each shared operation can do, said once: advancing, failing, sending, acknowledging, reading, drawing. -/

namespace Sys2Proof.Machine

/-! ### Programs -/

theorem program_length_le (op : HostOp) : (program op).length ≤ 12 := by cases op <;> decide

/-- A program ends in COMPLETE and has it nowhere else (43_sequencer.md R231). -/
theorem program_complete_iff (op : HostOp) (n : Nat) :
    (program op)[n]? = some .complete ↔ n + 1 = (program op).length := by
  by_cases h : n < 12
  · cases op <;> interval_cases n <;> decide
  · have h1 := program_length_le op
    constructor
    · intro h2
      rw [List.getElem?_eq_none (by omega)] at h2
      cases h2
    · intro h2; omega

/-- `SEQ.PC` does not wrap on a step inside a program (10_state.md R47). -/
theorem bumpPc_toNat (s : State) (h : s.PcOk) : s.bumpPc.seq.pc.toNat = s.seq.pc.toNat + 1 := by
  have h1 := program_length_le s.seq.op
  have h2 : s.seq.pc.toNat + 1 < 16 := by unfold State.PcOk at h; omega
  simp only [State.bumpPc_seq, BitVec.toNat_add]
  exact Nat.mod_eq_of_lt (by simpa using h2)

/-- The macro-step after one that is not COMPLETE is inside the program. -/
theorem bumpPc_pcOk (s : State) (h : s.PcOk) (hc : s.macroStep? ≠ some .complete) : s.bumpPc.PcOk := by
  have h1 : s.seq.pc.toNat + 1 ≠ (program s.seq.op).length := fun e => hc ((program_complete_iff _ _).2 e)
  unfold State.PcOk at h ⊢
  rw [bumpPc_toNat s h]
  simp only [State.bumpPc_seq]
  omega

/-- A macro-step that names something is inside the program. -/
theorem pcOk_of_macroStep {s : State} {m : MacroStep} (h : s.macroStep? = some m) : s.PcOk :=
  (List.getElem?_eq_some_iff.1 h).1

/-- PERFORM and SEND_STATUS are followed by the read of their answer (43_sequencer.md R231). -/
theorem macroStep_after_send (s : State) :
    ((s.macroStep? = some .performEnc ∨ s.macroStep? = some .performDec ∨ s.macroStep? = some .performHash) →
      s.bumpPc.macroStep? = some .drain) ∧
    (s.macroStep? = some .sendStatus → s.bumpPc.macroStep? = some .readStatus) := by
  rcases hs : s.seq with ⟨st, op, pc⟩
  simp only [State.macroStep?, State.bumpPc_seq, hs]
  clear hs
  revert pc
  cases op <;> decide

/-- What follows an acknowledgment, a status response or a TRACE has no entry action (43_sequencer.md R231). -/
theorem macroStep_after_ack (s : State) :
    ((∃ stage, s.macroStep? = some (.ack stage)) ∨ s.macroStep? = some .readStatus ∨ s.macroStep? = some .capture ∨
      s.macroStep? = some .trace ∨ s.macroStep? = some .arm ∨ s.macroStep? = some .drain) →
      (∀ role, s.bumpPc.macroStep? ≠ some (.upload role)) ∧ s.bumpPc.macroStep? ≠ some .drain := by
  rcases hs : s.seq with ⟨st, op, pc⟩
  simp only [State.macroStep?, State.bumpPc_seq, hs]
  clear hs
  intro h
  have key : ∀ op : HostOp, ∀ pc : BitVec 4,
      ((program op)[pc.toNat]? = some (.ack .finalAck) ∨ (program op)[pc.toNat]? = some (.ack .statusAck) ∨
        (program op)[pc.toNat]? = some .readStatus ∨ (program op)[pc.toNat]? = some .capture ∨
        (program op)[pc.toNat]? = some .trace ∨ (program op)[pc.toNat]? = some .arm ∨
        (program op)[pc.toNat]? = some .drain) →
      (program op)[(pc + 1).toNat]? ≠ some (.upload .input) ∧ (program op)[(pc + 1).toNat]? ≠ some (.upload .key) ∧
        (program op)[(pc + 1).toNat]? ≠ some (.upload .ad) ∧ (program op)[(pc + 1).toNat]? ≠ some .drain := by
    intro op; cases op <;> decide
  have hack : ∀ op : HostOp, ∀ pc : BitVec 4, ∀ stage, (program op)[pc.toNat]? = some (.ack stage) →
      stage = .finalAck ∨ stage = .statusAck := by
    intro op pc stage
    cases op <;> revert pc stage <;> intro pc stage <;> cases stage <;> revert pc <;> decide
  have := key op pc (by
    rcases h with ⟨stage, h⟩ | h
    · rcases hack op pc stage h with rfl | rfl
      · exact .inl h
      · exact .inr (.inl h)
    · exact .inr (.inr h))
  exact ⟨fun role => by cases role <;> [exact this.1; exact this.2.1; exact this.2.2.1], this.2.2.2⟩

/-! ### Advancing -/

section Advance
variable (s : State)

@[simp] theorem enterMacroStep_frame (m : Option MacroStep) :
    (enterMacroStep m s).cfg = s.cfg ∧ (enterMacroStep m s).bind = s.bind ∧ (enterMacroStep m s).seq = s.seq ∧
    (enterMacroStep m s).ses = s.ses ∧ (enterMacroStep m s).rxf = s.rxf ∧ (enterMacroStep m s).stat = s.stat ∧
    (enterMacroStep m s).err = s.err ∧ (enterMacroStep m s).out = s.out ∧ (enterMacroStep m s).par = s.par ∧
    (enterMacroStep m s).env = s.env ∧ (enterMacroStep m s).hist = s.hist := by
  unfold enterMacroStep; split <;> simp

@[simp] theorem State.advance_cfg : s.advance.cfg = s.cfg := by simp [State.advance]
@[simp] theorem State.advance_bind : s.advance.bind = s.bind := by simp [State.advance]
@[simp] theorem State.advance_seq : s.advance.seq = { s.seq with pc := s.seq.pc + 1 } := by simp [State.advance]
@[simp] theorem State.advance_ses : s.advance.ses = s.ses := by simp [State.advance]
@[simp] theorem State.advance_rxf : s.advance.rxf = s.rxf := by simp [State.advance]
@[simp] theorem State.advance_stat : s.advance.stat = s.stat := by simp [State.advance]
@[simp] theorem State.advance_err : s.advance.err = s.err := by simp [State.advance]
@[simp] theorem State.advance_out : s.advance.out = s.out := by simp [State.advance]
@[simp] theorem State.advance_par : s.advance.par = s.par := by simp [State.advance]
@[simp] theorem State.advance_env : s.advance.env = s.env := by simp [State.advance]
@[simp] theorem State.advance_hist : s.advance.hist = s.hist := by simp [State.advance]

theorem State.advance_macroStep : s.advance.macroStep? = s.bumpPc.macroStep? := by
  simp [State.macroStep?]

/-- What advancing does to the Segmenter: the entry of an UPLOAD restarts it (41_segmenter.md R170). -/
theorem State.advance_seg :
    (∃ role, s.bumpPc.macroStep? = some (.upload role) ∧ s.advance.seg = { phase := .check, role := role, off := 0 }) ∨
    ((∀ role, s.bumpPc.macroStep? ≠ some (.upload role)) ∧ s.advance.seg = s.seg) := by
  unfold State.advance enterMacroStep
  split <;> simp_all

/-- What advancing does to the Accumulator: the entry of a DRAIN clears it (42_accumulator.md R200). -/
theorem State.advance_acc :
    (s.bumpPc.macroStep? = some .drain ∧ s.advance.acc = { state := .awaiting, result := [], nchunk := 0 }) ∨
    (s.bumpPc.macroStep? ≠ some .drain ∧ s.advance.acc = s.acc) := by
  unfold State.advance enterMacroStep
  split <;> simp_all

/-- Where the next macro-step has no entry action, advancing only moves `SEQ.PC`. -/
theorem State.advance_eq_bumpPc (hu : ∀ role, s.bumpPc.macroStep? ≠ some (.upload role))
    (hd : s.bumpPc.macroStep? ≠ some .drain) : s.advance = s.bumpPc := by
  unfold State.advance enterMacroStep
  split <;> simp_all

/-- Where the next macro-step is a DRAIN, advancing enters it. -/
theorem State.advance_eq_drain (h : s.bumpPc.macroStep? = some .drain) :
    s.advance = { s.bumpPc with acc := { state := .awaiting, result := [], nchunk := 0 } } := by
  unfold State.advance enterMacroStep
  split <;> simp_all

end Advance

/-! ### Sending -/

/-- A payload within `MAX_CMD_PAYLOAD` is sent and the step goes on (40_frame_codec.md R140). -/
theorem sendCommand_of_le {payload : Bytes} (h : payload.length ≤ maxCmdPayload) (cmd scmd : Byte) (stage : Stage)
    (k : State → State) (s : State) :
    s.sendCommand cmd scmd payload stage k = k (s.emit (.send cmd scmd payload)) := by
  unfold State.sendCommand
  rw [if_neg (by omega)]

/-- A longer payload fails before anything is sent (40_frame_codec.md R140). -/
theorem sendCommand_of_gt {payload : Bytes} (h : maxCmdPayload < payload.length) (cmd scmd : Byte) (stage : Stage)
    (k : State → State) (s : State) :
    s.sendCommand cmd scmd payload stage k = s.fail .payloadTooLong stage 0 := by
  unfold State.sendCommand
  rw [if_pos h]

/-! ### Chunks -/

theorem slice_length (s : Bytes) (i j : Nat) : (slice s i j).length = min j s.length - i := by
  simp [slice]

/-- A chunk has as many bytes as the buffer has left, up to `CHUNK_SIZE` (41_segmenter.md R174). -/
theorem chunkAt_length (buf : Bytes) (off : Nat) : (chunkAt buf off).length = min chunkSize (buf.length - off) := by
  rw [chunkAt, slice_length]; omega

theorem chunkAt_length_le (buf : Bytes) (off : Nat) : (chunkAt buf off).length ≤ maxCmdPayload := by
  rw [chunkAt_length]
  exact le_trans (min_le_left _ _) (by decide)

/-! ### Passing an acknowledgment -/

/-- What follows a passed acknowledgment writes the Segmenter, or `SEQ.PC` with the next macro-step's entry, and leaves the
rest (41_segmenter.md R173, R177, 43_sequencer.md R247). -/
theorem State.ackPassed_frame (s : State) :
    s.ackPassed.cfg = s.cfg ∧ s.ackPassed.bind = s.bind ∧ s.ackPassed.ses = s.ses ∧ s.ackPassed.rxf = s.rxf ∧
    s.ackPassed.stat = s.stat ∧ s.ackPassed.err = s.err ∧ s.ackPassed.out = s.out ∧ s.ackPassed.par = s.par ∧
    s.ackPassed.env = s.env ∧ s.ackPassed.hist = s.hist ∧ s.ackPassed.seq.state = s.seq.state ∧
    s.ackPassed.seq.op = s.seq.op := by
  unfold State.ackPassed; split <;> simp

/-! ### Construction -/

/-- With a live link a construction changes nothing (70_reset_and_hazards.md R311). -/
theorem State.construct_of_bound {s : State} (h : s.bind.linkBound = true) (cfg : LinkConfig) : s.construct cfg = s :=
  if_pos h

/-- The first construction binds, flashes and resets (70_reset_and_hazards.md R311). -/
theorem State.construct_of_unbound {s : State} (h : s.bind.linkBound = false) (cfg : LinkConfig) :
    s.construct cfg = { State.reset with
      cfg := cfg, bind := { linkBound := true, flashed := true }, par := s.par, env := s.env, hist := s.hist ++ [.flash] } :=
  if_neg (by simp [h])

/-! ### The external agents -/

/-- Looking at the host leaves the other agents' scripts. -/
theorem Environment.afterHost_frame (e : Environment) :
    e.afterHost.link = e.link ∧ e.afterHost.capture = e.capture ∧ e.afterHost.trace = e.trace ∧
    e.afterHost.entropy = e.entropy := by
  unfold Environment.afterHost
  split
  · exact ⟨rfl, rfl, rfl, rfl⟩
  · split <;> exact ⟨rfl, rfl, rfl, rfl⟩

/-- A scripted answer of the link is the next one, and is used up. -/
theorem State.linkAnswer_cons {s : State} {a : Option Bytes} {rest : List (Option Bytes)} (h : s.env.link = a :: rest) :
    s.linkAnswer = a ∧ s.env.afterLink = { s.env with link := rest } := by
  simp [State.linkAnswer, Environment.afterLink, h]

/-- An entropy answer has the length asked for (60_exceptions.md R299). -/
@[simp] theorem State.entropyAnswer_length (s : State) (n : Nat) : (s.entropyAnswer n).length = n := by
  simp [State.entropyAnswer]

/-! ### Read sites -/

/-- The states whose next step reads the link, by read site. -/
theorem readSite_cases {s : State} {site : ReadSite} (h : s.readSite? = some site) :
    s.seq.state = .run ∧
    ((∃ role, s.macroStep? = some (.upload role) ∧ (s.seg.phase = .ackClear ∨ s.seg.phase = .ackAppend) ∧
        site = .ack s.seg.role.stage) ∨
     (∃ stage, s.macroStep? = some (.ack stage) ∧ site = .ack stage) ∨
     (s.macroStep? = some .drain ∧ (s.acc.state = .awaiting ∨ s.acc.state = .accumulating) ∧ site = .drain) ∨
     (s.macroStep? = some .readStatus ∧ site = .statusResponse)) := by
  unfold State.readSite? at h
  split at h
  · cases h
  · refine ⟨by assumption, ?_⟩
    split at h
    · split at h <;> simp_all
    · split at h <;> simp_all
    · simp_all
    · simp_all
    · cases h

/-- The step at a read site is a read of that site. -/
theorem activity_of_readSite {s : State} {site : ReadSite} (h : s.readSite? = some site) :
    s.activity = s.readActivity site := by
  obtain ⟨hr, h⟩ := readSite_cases h
  rcases h with ⟨role, hm, hp, rfl⟩ | ⟨stage, hm, rfl⟩ | ⟨hm, hp, rfl⟩ | ⟨hm, rfl⟩
  · rcases hp with hp | hp <;> simp [State.activity, State.runActivity, State.uploadActivity, *]
  · simp [State.activity, State.runActivity, *]
  · rcases hp with hp | hp <;> simp [State.activity, State.runActivity, State.drainActivity, *]
  · simp [State.activity, State.runActivity, *]

/-- A stage charged at an acknowledgment is an acknowledgment's stage (10_state.md R41). -/
theorem readSite_ack_isAck {s : State} {stage : Stage} (h : s.readSite? = some (.ack stage)) : stage.isAck = true := by
  obtain ⟨_, h⟩ := readSite_cases h
  rcases h with ⟨role, _, _, h⟩ | ⟨st, hm, h⟩ | ⟨_, _, h⟩ | ⟨_, h⟩
  · cases h; cases s.seg.role <;> rfl
  · cases h
    unfold State.macroStep? at hm
    revert hm
    generalize s.seq.pc.toNat = n
    cases hop : s.seq.op <;> intro hm <;> obtain ⟨hlt, hm⟩ := List.getElem?_eq_some_iff.1 hm <;>
      simp only [program, List.length_cons, List.length_nil] at hlt <;> interval_cases n <;> simp [program] at hm <;>
      subst hm <;> rfl
  · cases h
  · cases h

/-- What the link's read changes is not what a read site looks at. -/
theorem readSite_afterRead (tc : TimeoutClass) (s : State) : (s.afterRead tc).readSite? = s.readSite? := rfl

theorem readSite_latchFrame (tag : Byte) (f : Frame) (s : State) : (s.latchFrame tag f).readSite? = s.readSite? := rfl

end Sys2Proof.Machine
end

