-- ==== Sys2Proof/Laws/PerInstr.lean ====
section
/-! SUPPORT. Facts about every instruction as syntax, one lemma per constructor. The family `OpcodeRow`: the encoding of an
instruction matches its own row of spec/opcode_table.json and no other row. -/

namespace Sys2Proof.Laws.OpcodeRow

/-- The mnemonic of the row an instruction is. -/
def rowName : Instr → String
  | .setiClr => "SETI.CLR"
  | .setiApp _ => "SETI.APP"
  | .setkClr => "SETK.CLR"
  | .setkApp _ => "SETK.APP"
  | .setaClr => "SETA.CLR"
  | .setaApp _ => "SETA.APP"
  | .perfEnc _ => "PERF.ENC"
  | .perfDec _ => "PERF.DEC"
  | .hash => "HASH"
  | .status => "STATUS"
  | .rspR _ => "RSP.R"
  | .rspE _ => "RSP.E"
  | .rspT _ => "RSP.T"
  | .hostEncrypt _ => "HOST.ENCRYPT"
  | .hostDecrypt _ => "HOST.DECRYPT"
  | .hostHash _ => "HOST.HASH"
  | .hostStatus _ => "HOST.STATUS"

/-- The encoding matches exactly the instruction's own row. -/
def Statement (i : Instr) : Prop := mnemonicsOf (encode i).opcode = [rowName i]

/-- Opcode bits decide the rows that match. -/
theorem of_opcode {i : Instr} (op : Format × Nat) (h : (encode i).opcode = op) {name : String}
    (hm : mnemonicsOf op = [name]) (hn : rowName i = name) : Statement i := by
  unfold Statement; rw [h, hm, hn]

@[simp] theorem logicalFrame_opcode (cmd scmd : Byte) (p : Bytes) :
    (Encoded.cmd (logicalFrame cmd scmd p)).opcode = (.cmd, cmd.toNat * 256 + scmd.toNat) := rfl

@[simp] theorem rawFrame_opcode (tag : Byte) (f : Frame) : (Encoded.rsp (rawFrame tag f)).opcode = (.rsp, tag.toNat) := rfl

theorem setiClr : Statement .setiClr := of_opcode (.cmd, 0x6901) (by simp [encode, tagI, scmdOne]) (name := "SETI.CLR") (by decide) rfl
theorem setiApp (c : Bytes) : Statement (.setiApp c) := of_opcode (.cmd, 0x6900) (by simp [encode, tagI, scmdZero]) (name := "SETI.APP") (by decide) rfl
theorem setkClr : Statement .setkClr := of_opcode (.cmd, 0x6B01) (by simp [encode, tagK, scmdOne]) (name := "SETK.CLR") (by decide) rfl
theorem setkApp (c : Bytes) : Statement (.setkApp c) := of_opcode (.cmd, 0x6B00) (by simp [encode, tagK, scmdZero]) (name := "SETK.APP") (by decide) rfl
theorem setaClr : Statement .setaClr := of_opcode (.cmd, 0x6101) (by simp [encode, tagA, scmdOne]) (name := "SETA.CLR") (by decide) rfl
theorem setaApp (c : Bytes) : Statement (.setaApp c) := of_opcode (.cmd, 0x6100) (by simp [encode, tagA, scmdZero]) (name := "SETA.APP") (by decide) rfl
theorem perfEnc (n : Bytes) : Statement (.perfEnc n) := of_opcode (.cmd, 0x7001) (by simp [encode, tagP, scmdOne]) (name := "PERF.ENC") (by decide) rfl
theorem perfDec (n : Bytes) : Statement (.perfDec n) := of_opcode (.cmd, 0x7000) (by simp [encode, tagP, scmdZero]) (name := "PERF.DEC") (by decide) rfl
theorem hash : Statement .hash := of_opcode (.cmd, 0x6800) (by simp [encode, tagH, scmdZero]) (name := "HASH") (by decide) rfl
theorem status : Statement .status := of_opcode (.cmd, 0x7300) (by simp [encode, tagS, scmdZero]) (name := "STATUS") (by decide) rfl
theorem rspR (f : Frame) : Statement (.rspR f) := of_opcode (.rsp, 0x72) (by simp [encode, tagR]) (name := "RSP.R") (by decide) rfl
theorem rspE (f : Frame) : Statement (.rspE f) := of_opcode (.rsp, 0x65) (by simp [encode, tagE]) (name := "RSP.E") (by decide) rfl
theorem rspT (f : Frame) : Statement (.rspT f) := of_opcode (.rsp, 0x74) (by simp [encode, tagT]) (name := "RSP.T") (by decide) rfl
theorem hostEncrypt (a : HostArgs) : Statement (.hostEncrypt a) := of_opcode (.hostop, 0) rfl (name := "HOST.ENCRYPT") (by decide) rfl
theorem hostDecrypt (a : HostArgs) : Statement (.hostDecrypt a) := of_opcode (.hostop, 1) rfl (name := "HOST.DECRYPT") (by decide) rfl
theorem hostHash (a : HostArgs) : Statement (.hostHash a) := of_opcode (.hostop, 2) rfl (name := "HOST.HASH") (by decide) rfl
theorem hostStatus (a : HostArgs) : Statement (.hostStatus a) := of_opcode (.hostop, 3) rfl (name := "HOST.STATUS") (by decide) rfl

end Sys2Proof.Laws.OpcodeRow
end

