-- ==== Sys2Proof/Laws/Step.lean ====
section
/-! SUPPORT. What one step can do, said once: the inversion of `step` that every invariant cites. -/

namespace Sys2Proof.Machine

/-! ### Decoding a read -/

theorem decodeRsp_ok {raw : Bytes} {i : Instr} (h : decodeRsp raw = .ok i) :
    ∃ f, (splitFrame raw = some (tagR, f) ∧ i = .rspR f) ∨ (splitFrame raw = some (tagE, f) ∧ i = .rspE f) ∨
      (splitFrame raw = some (tagT, f) ∧ i = .rspT f) := by
  unfold decodeRsp at h
  split at h
  · cases h
  · rename_i tag f hs
    refine ⟨f, ?_⟩
    split at h
    · subst_vars; cases h; exact .inl ⟨hs, rfl⟩
    · split at h
      · subst_vars; cases h; exact .inr (.inl ⟨hs, rfl⟩)
      · split at h
        · subst_vars; cases h; exact .inr (.inr ⟨hs, rfl⟩)
        · cases h

theorem decodeRsp_otherTag {raw : Bytes} {tag : Byte} {f : Frame} (h : decodeRsp raw = .error (.otherTag tag f)) :
    splitFrame raw = some (tag, f) ∧ tag ≠ tagR ∧ tag ≠ tagE ∧ tag ≠ tagT := by
  unfold decodeRsp at h
  split at h
  · cases h
  · rename_i tag' f' hs
    split at h
    · cases h
    · split at h
      · cases h
      · split at h
        · cases h
        · cases h; exact ⟨hs, by assumption, by assumption, by assumption⟩

/-! ### Reads -/

/-- What a read at a site ends in (40_frame_codec.md R146, R147, 42_accumulator.md R201 to R206, 43_sequencer.md R251):
`s` is the state after the read, before `RXF` is written. -/
inductive ReadTo (site : ReadSite) (s : State) : State → Prop
  /-- A failure charged to the site's stage, with a listed cause; `r` is `s` with `RXF` written. -/
  | failed (r : State) (cls : ErrClass) (code : Byte)
      (hr : (∃ tag f, r = s.latchFrame tag f) ∨ ∃ n, r = s.latchUnfilled n)
      (hc : causeListed cls site.stage code) : ReadTo site s (r.fail cls site.stage code)
  /-- A passed acknowledgment. -/
  | acked (f : Frame) (stage : Stage) (hs : site = .ack stage) : ReadTo site s (s.latchFrame tagE f).ackPassed
  /-- An accepted chunk. -/
  | chunk (f : Frame) (hs : site = .drain)
      (ho : resultOverflows s.par.maxResultLen s.acc.result.length f.payload.length = false) :
      ReadTo site s { s.latchFrame tagR f with
        acc := { state := .accumulating, result := s.acc.result ++ f.payload, nchunk := s.acc.nchunk + 1 } }
  /-- An accepted terminator. -/
  | terminator (f : Frame) (hs : site = .drain) :
      ReadTo site s { s.latchFrame tagT f with acc := { s.acc with state := .done } }
  /-- An accepted status response. -/
  | flags (f : Frame) (a b : Bool) (hs : site = .statusResponse) :
      ReadTo site s (State.advance { s.latchFrame tagR f with stat := { s.stat with keyIsDone := a, inputMinLen := b } })

/-- Running an inbound frame at a read site is one of the ends of `ReadTo`. -/
theorem exec_readTo {s : State} {site : ReadSite} (hsite : s.readSite? = some site) {raw : Bytes} {i : Instr}
    (hd : decodeRsp raw = .ok i) {t : State} (h : exec i s = .next t) : ReadTo site s t := by
  obtain ⟨f, ⟨_, rfl⟩ | ⟨_, rfl⟩ | ⟨_, rfl⟩⟩ := decodeRsp_ok hd
  · simp only [exec, execRspR, hsite] at h
    cases site with
    | ack stage =>
      cases h
      exact .failed _ _ _ (.inl ⟨_, _, rfl⟩) (.inl ⟨readSite_ack_isAck hsite, by decide⟩)
    | drain =>
      simp only [State.acceptChunk] at h
      split at h <;> cases h
      · exact .failed (site := .drain) (s.latchFrame tagR f) .resultOverflow _ (.inl ⟨_, _, rfl⟩) ⟨rfl, rfl⟩
      · exact .chunk f rfl (by simp_all)
    | statusResponse =>
      simp only [State.acceptFlags] at h
      split at h <;> cases h
      · exact .failed (site := .statusResponse) (s.latchFrame tagR f) .malformedFrame _ (.inl ⟨_, _, rfl⟩)
          (.inr (.inr ⟨rfl, .inl rfl⟩))
      · exact .flags f _ _ rfl
  · simp only [exec, execRspE, hsite] at h
    cases site with
    | ack stage =>
      have hack := readSite_ack_isAck hsite
      simp only [State.acknowledge] at h
      split at h
      · cases h
        exact .failed (site := .ack stage) (s.latchFrame tagE f) .malformedFrame _ (.inl ⟨_, _, rfl⟩) (.inl ⟨hack, rfl⟩)
      · split at h <;> cases h
        · exact .acked f stage rfl
        · exact .failed (site := .ack stage) (s.latchFrame tagE f) .protocol _ (.inl ⟨_, _, rfl⟩) ⟨.inl hack, by assumption⟩
    | drain =>
      simp only [State.errorFrame] at h
      split at h
      · cases h
        exact .failed (site := .drain) (s.latchFrame tagE f) .malformedFrame _ (.inl ⟨_, _, rfl⟩)
          (.inr (.inl ⟨rfl, .inr rfl⟩))
      · split at h <;> cases h
        · exact .failed (site := .drain) (s.latchFrame tagE f) .errorFrameZero _ (.inl ⟨_, _, rfl⟩) ⟨.inl rfl, rfl⟩
        · exact .failed (site := .drain) (s.latchFrame tagE f) .protocol _ (.inl ⟨_, _, rfl⟩)
            ⟨.inr (.inl rfl), by assumption⟩
    | statusResponse =>
      simp only [State.errorFrame] at h
      split at h
      · cases h
        exact .failed (site := .statusResponse) (s.latchFrame tagE f) .malformedFrame _ (.inl ⟨_, _, rfl⟩)
          (.inr (.inr ⟨rfl, .inr rfl⟩))
      · split at h <;> cases h
        · exact .failed (site := .statusResponse) (s.latchFrame tagE f) .errorFrameZero _ (.inl ⟨_, _, rfl⟩) ⟨.inr rfl, rfl⟩
        · exact .failed (site := .statusResponse) (s.latchFrame tagE f) .protocol _ (.inl ⟨_, _, rfl⟩)
            ⟨.inr (.inr rfl), by assumption⟩
  · simp only [exec, execRspT, hsite] at h
    cases site with
    | ack stage =>
      cases h
      exact .failed _ _ _ (.inl ⟨_, _, rfl⟩) (.inl ⟨readSite_ack_isAck hsite, by decide⟩)
    | drain =>
      simp only [State.acceptTerminator] at h
      split at h
      · cases h
        exact .failed (site := .drain) (s.latchFrame tagT f) .malformedFrame _ (.inl ⟨_, _, rfl⟩)
          (.inr (.inl ⟨rfl, .inl rfl⟩))
      · split at h <;> cases h
        · exact .failed (site := .drain) (s.latchFrame tagT f) .resultLength _ (.inl ⟨_, _, rfl⟩) rfl
        · exact .terminator f rfl
    | statusResponse =>
      cases h
      exact .failed _ _ _ (.inl ⟨_, _, rfl⟩) (.inr (.inr ⟨rfl, by decide, by decide⟩))

/-! ### Steps -/

/-- What one step can do. -/
inductive StepTo (s : State) : State → Prop
  | accepted (op : HostOp) (a : HostArgs) (hi : s.seq.state = .idle) : StepTo s (s.afterHost.accept op a)
  | constructed (cfg : LinkConfig) (hi : s.seq.state = .idle) : StepTo s (s.afterHost.construct cfg)
  | waited (hi : s.seq.state = .idle) : StepTo s s.afterHost
  | flushed (hr : s.seq.state = .run) (hm : s.macroStep? = some .flush) : StepTo s (s.emit .flush).advance
  | checkFailed (role : Role) (hr : s.seq.state = .run) (hm : s.macroStep? = some (.upload role))
      (hp : s.seg.phase = .check) (hl : s.seg.role.maxLen s.cfg < s.uploadBuffer.length) :
      StepTo s (s.fail .configLength s.seg.role.stage 0)
  | checked (role : Role) (hr : s.seq.state = .run) (hm : s.macroStep? = some (.upload role))
      (hp : s.seg.phase = .check) (hl : s.uploadBuffer.length ≤ s.seg.role.maxLen s.cfg) :
      StepTo s (s.setPhase .sendClear)
  | clearSent (role : Role) (hr : s.seq.state = .run) (hm : s.macroStep? = some (.upload role))
      (hp : s.seg.phase = .sendClear) : StepTo s ((s.emit (.send s.seg.role.tag 0x01 [])).setPhase .ackClear)
  | appendSent (role : Role) (hr : s.seq.state = .run) (hm : s.macroStep? = some (.upload role))
      (hp : s.seg.phase = .sendAppend) :
      StepTo s ((s.emit (.send s.seg.role.tag 0x00 s.nextChunk)).appended s.nextChunk.length)
  | uploaded (role : Role) (hr : s.seq.state = .run) (hm : s.macroStep? = some (.upload role))
      (hp : s.seg.phase = .done) : StepTo s s.advance
  | nonceDrawn (hr : s.seq.state = .run) (hm : s.macroStep? = some .nonce) (hn : s.ses.nonce = []) :
      StepTo s (s.drawNonce s.cfg.nonceLen).advance
  | nonceKept (hr : s.seq.state = .run) (hm : s.macroStep? = some .nonce) (hn : s.ses.nonce ≠ []) : StepTo s s.advance
  | armed (hr : s.seq.state = .run) (hm : s.macroStep? = some .arm) : StepTo s (s.emit .arm).advance
  | nonceTooLong (hr : s.seq.state = .run) (hm : s.macroStep? = some .performEnc ∨ s.macroStep? = some .performDec)
      (hn : maxCmdPayload < s.ses.nonce.length) : StepTo s (s.fail .payloadTooLong .perform 0)
  | encryptSent (hr : s.seq.state = .run) (hm : s.macroStep? = some .performEnc)
      (hn : s.ses.nonce.length ≤ maxCmdPayload) : StepTo s (s.emit (.send 0x70 0x01 s.ses.nonce)).advance
  | decryptSent (hr : s.seq.state = .run) (hm : s.macroStep? = some .performDec)
      (hn : s.ses.nonce.length ≤ maxCmdPayload) : StepTo s (s.emit (.send 0x70 0x00 s.ses.nonce)).advance
  | hashSent (hr : s.seq.state = .run) (hm : s.macroStep? = some .performHash) :
      StepTo s (s.emit (.send 0x68 0x00 [])).advance
  | statusSent (hr : s.seq.state = .run) (hm : s.macroStep? = some .sendStatus) :
      StepTo s (s.emit (.send 0x73 0x00 [])).advance
  | read (site : ReadSite) (t : State) (hsite : s.readSite? = some site)
      (h : ReadTo site (s.afterRead site.timeoutClass) t) : StepTo s t
  | drained (hr : s.seq.state = .run) (hm : s.macroStep? = some .drain) (hd : s.acc.state = .done) : StepTo s s.advance
  | captureFailed (hr : s.seq.state = .run) (hm : s.macroStep? = some .capture) (hc : s.captureAnswer = true) :
      StepTo s (s.afterCapture.fail .instrumentTimeout .capture 0)
  | captured (hr : s.seq.state = .run) (hm : s.macroStep? = some .capture) (hc : s.captureAnswer = false) :
      StepTo s s.afterCapture.advance
  | traced (hr : s.seq.state = .run) (hm : s.macroStep? = some .trace) : StepTo s s.afterTrace.advance
  | completed (hr : s.seq.state = .run) (hm : s.macroStep? = some .complete) : StepTo s s.completeStep

theorem readActivity_to {s t : State} {site : ReadSite} (hsite : s.readSite? = some site)
    (h : step s = .next t) : StepTo s t := by
  refine .read site t hsite ?_
  have hack : ∀ stage, site = .ack stage → stage.isAck = true := fun stage e => readSite_ack_isAck (e ▸ hsite)
  have hun : ∀ n, ReadTo site (s.afterRead site.timeoutClass)
      ((s.afterRead site.timeoutClass).unfilledRead site n) := fun n => by
    refine .failed (((s.afterRead site.timeoutClass).latchUnfilled n)) _ _ (.inr ⟨_, rfl⟩) ?_
    cases site with
    | ack stage => exact ⟨.inl (hack _ rfl), rfl⟩
    | drain => exact ⟨.inr (.inl rfl), rfl⟩
    | statusResponse => exact ⟨.inr (.inr rfl), rfl⟩
  simp only [step, activity_of_readSite hsite, State.readActivity] at h
  split at h
  · rename_i i u ha
    split at ha
    · cases ha
    · split at ha
      · cases ha
        exact exec_readTo (by rw [readSite_afterRead]; exact hsite) (by assumption) h
      · cases ha
      · cases ha
  · rename_i u ha
    split at ha
    · cases ha; cases h; exact hun 0
    · split at ha
      · cases ha
      · cases ha; cases h; exact hun _
      · cases ha; cases h
        rename_i tag f hd
        obtain ⟨_, h1, h2, h3⟩ := decodeRsp_otherTag hd
        refine .failed _ .unexpectedTag tag (.inl ⟨tag, f, rfl⟩) ?_
        cases site with
        | ack stage => exact .inl ⟨hack _ rfl, h2⟩
        | drain => exact .inr (.inl ⟨rfl, h1, h2, h3⟩)
        | statusResponse => exact .inr (.inr ⟨rfl, h1, h2⟩)
  · cases h

/-- The inversion of `step`: if it answers a next state, one of the cases of `StepTo` holds. -/
theorem step_to {s t : State} (h : step s = .next t) : StepTo s t := by
  cases hsite : s.readSite? with
  | some site => exact readActivity_to hsite h
  | none =>
  cases hr : s.seq.state with
  | idle =>
    simp only [step, State.activity, hr, State.idleActivity] at h
    split at h
    · rename_i i u ha
      split at ha <;> cases ha
      rename_i r _
      have hi : s.afterHost.seq.state = .idle := hr
      unfold hostRequestInstr decodeHost at h
      split at h
      · simp only [exec, execHostEncrypt, State.present, hi] at h
        cases h; exact .accepted _ _ hr
      · split at h
        · simp only [exec, execHostDecrypt, State.present, hi] at h
          cases h; exact .accepted _ _ hr
        · split at h
          · simp only [exec, execHostHash, State.present, hi] at h
            cases h; exact .accepted _ _ hr
          · simp only [exec, execHostStatus, State.present, hi] at h
            cases h; exact .accepted _ _ hr
    · rename_i u ha
      split at ha <;> cases ha <;> cases h
      · exact .constructed _ hr
      · exact .waited hr
    · rename_i ha
      split at ha <;> cases ha
  | run =>
    simp only [step, State.activity, hr, State.runActivity] at h
    simp only [State.readSite?, hr] at hsite
    cases hm : s.macroStep? with
    | none => rw [hm] at h; cases h
    | some m =>
      rw [hm] at h hsite
      cases m with
      | flush => cases h; exact .flushed hr hm
      | upload role =>
        simp only [State.uploadActivity] at h
        cases hp : s.seg.phase with
        | check =>
          rw [hp] at h
          simp only [State.checkStep] at h
          split at h <;> cases h
          · exact .checkFailed role hr hm hp (by assumption)
          · exact .checked role hr hm hp (by omega)
        | sendClear =>
          rw [hp] at h
          have hc := StepTo.clearSent role hr hm hp
          revert hc
          cases hrole : s.seg.role <;> intro hc <;>
            (simp only [hrole, clearCommand, exec, execSetiClr, execSetkClr, execSetaClr, State.sendClear] at h
             rw [sendCommand_of_le (by decide)] at h
             cases h
             exact hc)
        | ackClear => rw [hp] at hsite; cases hsite
        | sendAppend =>
          rw [hp] at h
          have hc := StepTo.appendSent role hr hm hp
          have hl : s.nextChunk.length ≤ maxCmdPayload := chunkAt_length_le _ _
          revert hc
          cases hrole : s.seg.role <;> intro hc <;>
            (simp only [hrole, appendCommand, exec, execSetiApp, execSetkApp, execSetaApp, State.sendAppend] at h
             rw [sendCommand_of_le hl] at h
             cases h
             exact hc)
        | ackAppend => rw [hp] at hsite; cases hsite
        | done => rw [hp] at h; cases h; exact .uploaded role hr hm hp
      | nonce =>
        simp only [State.nonceStep] at h
        split at h <;> rename_i hn <;> cases h
        · exact .nonceDrawn hr hm (List.length_eq_zero_iff.1 hn)
        · exact .nonceKept hr hm (fun e => hn (List.length_eq_zero_iff.2 e))
      | arm => cases h; exact .armed hr hm
      | performEnc =>
        simp only [exec, execPerfEnc] at h
        by_cases hl : s.ses.nonce.length ≤ maxCmdPayload
        · rw [sendCommand_of_le hl] at h; cases h; exact .encryptSent hr hm hl
        · rw [sendCommand_of_gt (by omega)] at h; cases h; exact .nonceTooLong hr (.inl hm) (by omega)
      | performDec =>
        simp only [exec, execPerfDec] at h
        by_cases hl : s.ses.nonce.length ≤ maxCmdPayload
        · rw [sendCommand_of_le hl] at h; cases h; exact .decryptSent hr hm hl
        · rw [sendCommand_of_gt (by omega)] at h; cases h; exact .nonceTooLong hr (.inr hm) (by omega)
      | performHash =>
        simp only [exec, execHash] at h
        rw [sendCommand_of_le (by decide)] at h; cases h; exact .hashSent hr hm
      | drain =>
        simp only [State.drainActivity] at h
        cases hp : s.acc.state with
        | awaiting => rw [hp] at hsite; cases hsite
        | accumulating => rw [hp] at hsite; cases hsite
        | done => rw [hp] at h; cases h; exact .drained hr hm hp
        | failed => rw [hp] at h; cases h
      | ack stage => cases hsite
      | capture =>
        simp only [State.captureStep] at h
        split at h <;> rename_i hc <;> cases h
        · exact .captureFailed hr hm hc
        · exact .captured hr hm (by simpa using hc)
      | trace => cases h; exact .traced hr hm
      | sendStatus =>
        simp only [exec, execStatus] at h
        rw [sendCommand_of_le (by decide)] at h; cases h; exact .statusSent hr hm
      | readStatus => cases hsite
      | complete => cases h; exact .completed hr hm

/-! ### Runs -/

/-- A run goes on after its first step. -/
theorem run_succ (M : Host.Core) (n : Nat) (s t : M.State) (h : M.step s = .next t) : M.run (n + 1) s = M.run n t := by
  simp only [Host.Core.run, h]

/-- Two runs, one after the other. -/
theorem run_add (M : Host.Core) (m n : Nat) (s t : M.State) (h : M.run m s = .next t) : M.run (m + n) s = M.run n t := by
  induction m generalizing s with
  | zero => cases h; rw [Nat.zero_add]
  | succ m ih =>
    rw [Nat.succ_add]
    simp only [Host.Core.run] at h ⊢
    cases hs : M.step s <;> rw [hs] at h
    · exact ih _ h
    · cases h
    · cases h

end Sys2Proof.Machine
end

