-- ==== Sys2Proof/Tests/Slice0.lean ====
section
/-! SUPPORT. Own tests: the smoke test of WellFormed, a written-out word for every constructor, one-step tests from the
vectors of spec/95_test_vectors.md, and for every statement with hypotheses a concrete case that meets them. -/

namespace Sys2Proof.Tests

open Sys2Proof.Machine

/-! ### WellFormed: each check accepts its boundary values and refuses the values beyond -/

def frame (payload trailer : Bytes) : Frame := ⟨0x00, 0x01, payload, trailer⟩

theorem test_wf_chunk_refused : chunkOk [] = false ∧ chunkOk (List.replicate 101 0) = false := by decide
theorem test_wf_chunk_accepted : chunkOk [0x01] = true ∧ chunkOk (List.replicate 100 0) = true := by decide
theorem test_wf_append_commands_use_it :
    (Instr.setiApp []).wellFormed = false ∧ (Instr.setkApp []).wellFormed = false ∧ (Instr.setaApp []).wellFormed = false := by
  decide
theorem test_wf_nonce_refused : nonceOk (List.replicate 256 0) = false := by
  rw [Bool.eq_false_iff, ne_eq, nonceOk_iff, List.length_replicate]; decide
theorem test_wf_nonce_accepted : nonceOk [] = true ∧ nonceOk (List.replicate 255 0) = true := by
  rw [nonceOk_iff, nonceOk_iff, List.length_replicate]; decide
theorem test_wf_nonce_commands_use_it :
    (Instr.perfEnc (List.replicate 256 0)).wellFormed = false ∧ (Instr.perfDec (List.replicate 256 0)).wellFormed = false :=
  ⟨test_wf_nonce_refused, test_wf_nonce_refused⟩
theorem test_wf_frame_refused :
    frameOk (frame [] []) = false ∧ frameOk (frame [0x07] [0x00]) = false ∧ frameOk (frame [] [0, 0, 0]) = false := by decide
theorem test_wf_frame_accepted :
    frameOk (frame [] [0x00]) = true ∧ frameOk (frame [] [0xCC, 0x00]) = true ∧
    frameOk (frame [0x07] [0xCC, 0x00]) = true := by decide
theorem test_wf_inbound_use_it :
    (Instr.rspR (frame [] [])).wellFormed = false ∧ (Instr.rspE (frame [] [])).wellFormed = false ∧
    (Instr.rspT (frame [] [])).wellFormed = false := by decide

/-! ### Decoding: one word of every constructor, written out from 30_encoding.md R100, R103 to R105, R110 -/

theorem test_decode_setiClr : decode (.cmd [0x69, 0x01, 0x00]) = .ok .setiClr := by decide
theorem test_decode_setiApp : decode (.cmd [0x69, 0x00, 0x02, 0x61, 0x62]) = .ok (.setiApp [0x61, 0x62]) := by decide
theorem test_decode_setkClr : decode (.cmd [0x6B, 0x01, 0x00]) = .ok .setkClr := by decide
theorem test_decode_setkApp : decode (.cmd [0x6B, 0x00, 0x02, 0x00, 0x01]) = .ok (.setkApp [0x00, 0x01]) := by decide
theorem test_decode_setaClr : decode (.cmd [0x61, 0x01, 0x00]) = .ok .setaClr := by decide
theorem test_decode_setaApp : decode (.cmd [0x61, 0x00, 0x01, 0xAD]) = .ok (.setaApp [0xAD]) := by decide
theorem test_decode_perfEnc : decode (.cmd [0x70, 0x01, 0x01, 0xA0]) = .ok (.perfEnc [0xA0]) := by decide
theorem test_decode_perfDec : decode (.cmd [0x70, 0x00, 0x01, 0x01]) = .ok (.perfDec [0x01]) := by decide
theorem test_decode_hash : decode (.cmd [0x68, 0x00, 0x00]) = .ok .hash := by decide
theorem test_decode_status : decode (.cmd [0x73, 0x00, 0x00]) = .ok .status := by decide
/-- Vector DC7 (the payload stands between the three header bytes and the trailing two). -/
theorem test_decode_rspR : decode (.rsp [0x00, 0x72, 0x02, 0x11, 0x22, 0xCC, 0x00]) =
    .ok (.rspR ⟨0x00, 0x02, [0x11, 0x22], [0xCC, 0x00]⟩) := by decide
/-- Vector DC4: four bytes are a filled frame without payload. -/
theorem test_decode_rspE : decode (.rsp [0x00, 0x65, 0x01, 0x00]) = .ok (.rspE ⟨0x00, 0x01, [], [0x00]⟩) := by decide
/-- Vector DC9 (start marker and trailer are not looked at). -/
theorem test_decode_rspT : decode (.rsp [0xFF, 0x74, 0x01, 0x05, 0x12, 0x34]) =
    .ok (.rspT ⟨0xFF, 0x01, [0x05], [0x12, 0x34]⟩) := by decide
theorem test_decode_hostEncrypt : decode (.hostop 0 ⟨[1], [2], [3], [4]⟩) = .ok (.hostEncrypt ⟨[1], [2], [3], [4]⟩) := by decide
theorem test_decode_hostDecrypt : decode (.hostop 1 ⟨[1], [2], [3], [4]⟩) = .ok (.hostDecrypt ⟨[1], [2], [3], [4]⟩) := by decide
theorem test_decode_hostHash : decode (.hostop 2 ⟨[1], [2], [3], [4]⟩) = .ok (.hostHash ⟨[1], [2], [3], [4]⟩) := by decide
theorem test_decode_hostStatus : decode (.hostop 3 ⟨[1], [2], [3], [4]⟩) = .ok (.hostStatus ⟨[1], [2], [3], [4]⟩) := by decide

/-- Every rejection by name. -/
theorem test_decode_rejections :
    decode (.cmd [0x69, 0x01]) = .error (.cmd .truncated) ∧
    decode (.cmd [0x69, 0x00, 0x02, 0x61]) = .error (.cmd .lengthMismatch) ∧
    decode (.cmd [0x68, 0x01, 0x00]) = .error (.cmd (.unknownCommand 0x68 0x01)) ∧
    decode (.cmd [0x69, 0x01, 0x01, 0xAA]) = .error (.cmd .payloadNotAllowed) ∧
    decode (.rsp [0x00, 0x65, 0x01]) = .error (.rsp (.unfilled 3)) ∧
    decode (.rsp [0x00, 0x41, 0x01, 0x00, 0xCC, 0x00]) =
      .error (.rsp (.otherTag 0x41 ⟨0x00, 0x01, [0x00], [0xCC, 0x00]⟩)) := by decide

/-- The values of spec/opcode_table.json, as the host gives them. -/
theorem test_table_words :
    ([0x6901, 0x6900, 0x6B01, 0x6B00, 0x6101, 0x6100, 0x7001, 0x7000, 0x6800, 0x7300].map (decodeTableWord 16)) =
      [some .setiClr, some (.setiApp []), some .setkClr, some (.setkApp []), some .setaClr, some (.setaApp []),
       some (.perfEnc []), some (.perfDec []), some .hash, some .status] ∧
    ([0x72, 0x65, 0x74, 0, 1, 2, 3].map (decodeTableWord 8)) =
      [some (.rspR (⟨0, 0, [0, 0], [0, 0]⟩)), some (.rspE (⟨0, 0, [0, 0], [0, 0]⟩)), some (.rspT (⟨0, 0, [0, 0], [0, 0]⟩)),
       some (.hostEncrypt ⟨[], [], [], []⟩), some (.hostDecrypt ⟨[], [], [], []⟩), some (.hostHash ⟨[], [], [], []⟩),
       some (.hostStatus ⟨[], [], [], []⟩)] := by decide

/-! ### A small state: constructed with the default configuration of 95_test_vectors.md section 0 -/

/-- The state after construction; `STATUS_NAME` names 0x05 only. -/
def base : State :=
  { State.reset with
    cfg := { keyLen := 32, maxInputLen := 256, maxAdLen := 256, nonceLen := 16 }
    bind := { linkBound := true, flashed := true }
    par := { maxResultLen := none, termFailOn := .mismatch, statusNames := [(0x05, .unexpectedFrameByte)] } }

/-- `base` in `RUN` at a macro-step. -/
def at_ (op : HostOp) (pc : BitVec 4) : State := { base with seq := { state := .run, op := op, pc := pc } }

/-- In the input upload with a buffer of `n` zero bytes. -/
def uploading (n : Nat) (phase : SegPhase) (off : Nat) : State :=
  { at_ .encrypt 1 with
    ses := { input := List.replicate n 0, key := [], ad := [], nonce := [] }
    seg := { phase := phase, role := .input, off := off } }

/-- In the drain of an encryption, with one chunk received. -/
def draining : State :=
  { at_ .encrypt 7 with acc := { state := .accumulating, result := [0x01], nchunk := 1 } }

/-- `draining` with `TERM_FAIL_ON = MATCH`. -/
def drainingMatch : State := { draining with par := { draining.par with termFailOn := .equal } }

/-- `draining` with three bytes received and `MAX_RESULT_LEN = 4` (vectors AC16, AC17). -/
def drainingBounded : State :=
  { draining with
    par := { draining.par with maxResultLen := some 4 }
    acc := { state := .accumulating, result := [1, 2, 3], nchunk := 1 } }

/-- At the read of a status response. -/
def readingStatus : State := at_ .status 2

/-- At the final acknowledgment of an encryption. -/
def readingFinalAck : State := at_ .encrypt 8

/-- A state whose next link read is answered. -/
def answered (raw : Option Bytes) (s : State) : State := { s with env := { s.env with link := [raw] } }

/-- The state after one instruction. -/
def after (o : Host.Outcome State Fault Refusal) : Option State :=
  match o with
  | .next t => some t
  | .fault _ => none
  | .refused _ => none

/-- The frames of 95_test_vectors.md section 0. -/
def data (p : Bytes) : Frame := ⟨0x00, BitVec.ofNat 8 p.length, p, [0xCC, 0x00]⟩
def status (b : Byte) : Frame := ⟨0x00, 0x01, [b], [0xCC, 0x00]⟩
def rawData (p : Bytes) : Bytes := [0x00, 0x72, BitVec.ofNat 8 p.length] ++ p ++ [0xCC, 0x00]
def rawStatus (b : Byte) : Bytes := [0x00, 0x65, 0x01, b, 0xCC, 0x00]
def rawCount (b : Byte) : Bytes := [0x00, 0x74, 0x01, b, 0xCC, 0x00]

/-! ### One step of each instruction -/

/-- 41_segmenter.md R172, R175; vector EN1. -/
theorem test_setiClr : (after (exec .setiClr (uploading 5 .sendClear 0))).map (fun t => (t.hist, t.seg.phase)) =
    some ([.send 0x69 0x01 []], .ackClear) := by decide
/-- 41_segmenter.md R174; vector SG12: the second chunk of 101 bytes. -/
theorem test_setiApp : (after (exec (.setiApp [0x07]) (uploading 101 .sendAppend 100))).map (fun t => (t.hist, t.seg)) =
    some ([.send 0x69 0x00 [0x07]], { phase := .ackAppend, role := .input, off := 101 }) := by decide
theorem test_setkClr : (after (exec .setkClr (at_ .encrypt 2))).map (fun t => (t.hist, t.seg.phase)) =
    some ([.send 0x6B 0x01 []], .ackClear) := by decide
theorem test_setkApp : (after (exec (.setkApp [0x00, 0x01]) (at_ .encrypt 2))).map (fun t => (t.hist, t.seg.off)) =
    some ([.send 0x6B 0x00 [0x00, 0x01]], 2) := by decide
theorem test_setaClr : (after (exec .setaClr (at_ .encrypt 3))).map (fun t => (t.hist, t.seg.phase)) =
    some ([.send 0x61 0x01 []], .ackClear) := by decide
theorem test_setaApp : (after (exec (.setaApp [0xAD]) (at_ .encrypt 3))).map (fun t => (t.hist, t.seg.off)) =
    some ([.send 0x61 0x00 [0xAD]], 1) := by decide
/-- Vector Q2, and 42_accumulator.md R200: the send enters the drain. -/
theorem test_perfEnc : (after (exec (.perfEnc [0xA0]) { at_ .encrypt 6 with acc := draining.acc })).map
    (fun t => (t.hist, t.seq.pc, t.acc)) = some ([.send 0x70 0x01 [0xA0]], 7, .reset) := by decide
theorem test_perfDec : (after (exec (.perfDec []) (at_ .decrypt 5))).map (fun t => (t.hist, t.seq.pc)) =
    some ([.send 0x70 0x00 []], 6) := by decide
theorem test_hash : (after (exec .hash (at_ .hash 3))).map (fun t => (t.hist, t.seq.pc)) =
    some ([.send 0x68 0x00 []], 4) := by decide
theorem test_status : (after (exec .status (at_ .status 1))).map (fun t => (t.hist, t.seq.pc)) =
    some ([.send 0x73 0x00 []], 2) := by decide
/-- Vector AC17: exactly at the bound. -/
theorem test_rspR_chunk : (after (exec (.rspR (data [4])) drainingBounded)).map (fun t => t.acc) =
    some { state := .accumulating, result := [1, 2, 3, 4], nchunk := 2 } := by decide
/-- Vector Q6: any byte but 0x00 is true, and a third byte is ignored. -/
theorem test_rspR_flags : (after (exec (.rspR (data [0x02, 0x00, 0x09])) readingStatus)).map (fun t => (t.stat, t.seq.pc)) =
    some ({ keyIsDone := true, inputMinLen := false, valid := false }, 3) := by decide
/-- Vector AK7 with the status that `base` names. -/
theorem test_rspE_nack : (after (exec (.rspE (status 0x05)) readingFinalAck)).map (fun t => t.err) =
    some { valid := true, cls := .protocol, stage := .finalAck, code := 0x05, known := true } := by decide
/-- Vector AC8. -/
theorem test_rspE_in_drain : (after (exec (.rspE (status 0x00)) draining)).map (fun t => (t.err.cls, t.acc.state)) =
    some (.errorFrameZero, .failed) := by decide
/-- Vectors AC15, AC3: one chunk against a count of 1 and of 2. -/
theorem test_rspT : (after (exec (.rspT (status 0x01)) draining)).map (fun t => t.acc.state) = some .done ∧
    (after (exec (.rspT (status 0x02)) draining)).map (fun t => t.err.cls) = some .resultLength := by decide
/-- Vectors AC15 and AC3 under `MATCH`. -/
theorem test_rspT_match : (after (exec (.rspT (status 0x01)) drainingMatch)).map (fun t => (t.err.cls, t.err.code)) =
      some (.resultLength, 0x01) ∧
    (after (exec (.rspT (status 0x02)) drainingMatch)).map (fun t => t.acc.state) = some .done := by decide
/-- 43_sequencer.md R233 after a failure (program P6). -/
theorem test_hostEncrypt : (after (exec (.hostEncrypt ⟨[1], [2], [3], [4]⟩) { draining with
    seq := { state := .idle, op := .status, pc := 4 } })).map (fun t => (t.seq, t.ses, t.acc)) =
    some ({ state := .run, op := .encrypt, pc := 0 }, { input := [1], key := [2], ad := [3], nonce := [4] }, .reset) := by decide
theorem test_hostDecrypt : (after (exec (.hostDecrypt ⟨[], [], [], []⟩) base)).map (fun t => t.seq) =
    some { state := .run, op := .decrypt, pc := 0 } := by decide
/-- Vector Q15: a second request is held. -/
theorem test_hostHash : (after (exec (.hostHash ⟨[9], [], [], []⟩) draining)).map (fun t => (t.seq, t.env.held)) =
    some (draining.seq, [{ op := 2, args := ⟨[9], [], [], []⟩ }]) := by decide
theorem test_hostStatus : (after (exec (.hostStatus ⟨[], [], [], []⟩) base)).map (fun t => t.seq) =
    some { state := .run, op := .status, pc := 0 } := by decide

/-! ### Cases that meet the hypotheses of the statements, clause by clause, at boundary values -/

theorem hyp_DecodeOfEncode : (Instr.setiApp (List.replicate 100 0)).wellFormed = true ∧
    (Instr.perfDec (List.replicate 255 0)).wellFormed = true ∧ (Instr.rspE (frame [] [0x00])).wellFormed = true :=
  ⟨test_wf_chunk_accepted.2, test_wf_nonce_accepted.2, test_wf_frame_accepted.1⟩

theorem hyp_EncodeOfDecode : decode (.cmd [0x69, 0x00, 0x00]) = .ok (.setiApp []) := by decide

theorem hyp_DecodeIsPositional : ([0x00, 0x65, 0x01] : Bytes).length < 4 ∧ 4 ≤ ([0x00, 0x65, 0x01, 0x00] : Bytes).length := by
  decide

/-- A wire that adds a trailing byte, and one that leaves out the length byte, which the payload gives again. -/
theorem hyp_WireBytesRecoverTheCommand : (Instr.setaApp [0xAD]).wellFormed = true ∧
    encode (.setaApp [0xAD]) = .cmd [0x61, 0x00, 0x01, 0xAD] ∧
    (∃ w : WireWrap, w.wrap [0x61, 0x00, 0x01, 0xAD] = [0x61, 0x00, 0x01, 0xAD, 0x00]) ∧
    (∃ w : WireWrap, w.wrap [0x61, 0x00, 0x01, 0xAD] = [0x61, 0x00, 0xAD]) :=
  ⟨by decide, by decide,
    ⟨{ wrap := (· ++ [0x00]), unwrap := List.dropLast, unwrap_wrap := by simp }, rfl⟩,
    ⟨{ wrap := fun frame => frame.take 2 ++ frame.drop 3
       unwrap := fun wire => wire.take 2 ++ BitVec.ofNat 8 (wire.drop 2).length :: wire.drop 2
       unwrap_wrap := by simp [logicalFrame] }, rfl⟩⟩

/-- `base` with a request that the host presents next. -/
def requested (op : BitVec 2) : State := { base with env := { base.env with host := [some (.request ⟨op, ⟨[1], [], [], []⟩⟩)] } }

theorem hyp_StepRunsTheDecodedInstruction :
    ((requested 2).seq.state = .idle ∧ (requested 2).hostAnswer = some (.request ⟨2, ⟨[1], [], [], []⟩⟩) ∧
      decode (.hostop 2 ⟨[1], [], [], []⟩) = .ok (.hostHash ⟨[1], [], [], []⟩)) ∧
    ((answered (some (rawCount 1)) draining).readSite? = some .drain ∧
      (answered (some (rawCount 1)) draining).linkAnswer = some (rawCount 1) ∧
      decode (.rsp (rawCount 1)) = .ok (.rspT (status 1))) ∧
    ((uploading 5 .sendClear 0).seq.state = .run ∧ (uploading 5 .sendClear 0).macroStep? = some (.upload .input) ∧
      (uploading 5 .sendClear 0).seg.phase = .sendClear) ∧
    ((uploading 5 .sendAppend 0).macroStep? = some (.upload .input) ∧ (uploading 5 .sendAppend 0).seg.phase = .sendAppend) ∧
    ((at_ .encrypt 6).seq.state = .run ∧ (at_ .encrypt 6).macroStep? = some .performEnc) ∧
    ((at_ .decrypt 5).seq.state = .run ∧ (at_ .decrypt 5).macroStep? = some .performDec) ∧
    ((at_ .hash 3).seq.state = .run ∧ (at_ .hash 3).macroStep? = some .performHash) ∧
    ((at_ .status 1).seq.state = .run ∧ (at_ .status 1).macroStep? = some .sendStatus) := by decide

theorem hyp_PlacedInstructionRuns : (Instr.setkApp (List.replicate 100 0)).wellFormed = true := test_wf_chunk_accepted.2

theorem hyp_AppendCommandsSend : (List.replicate 255 0 : Bytes).length ≤ 255 := by rw [List.length_replicate]

theorem hyp_PerformCommandsSend : (List.replicate 255 0 : Bytes).length ≤ 255 ∧
    (at_ .encrypt 6).macroStep? = some .performEnc ∧ (at_ .decrypt 5).macroStep? = some .performDec ∧
    255 < (List.replicate 256 0 : Bytes).length := by
  rw [List.length_replicate, List.length_replicate]; decide

theorem hyp_HashAndStatusCommandsSend : (at_ .hash 3).macroStep? = some .performHash ∧
    (at_ .status 1).macroStep? = some .sendStatus := by decide

/-- `s` with a nonce of `n` bytes. -/
def withNonce (n : Nat) (s : State) : State := { s with ses := { s.ses with nonce := List.replicate n 0 } }

/-- The longest nonce that is sent and the shortest that is not, at both macro-steps that send one. -/
theorem hyp_PerformAndStatusSteps :
    (∀ n, (withNonce n (at_ .encrypt 6)).seq.state = .run ∧ (withNonce n (at_ .encrypt 6)).macroStep? = some .performEnc ∧
      (withNonce n (at_ .decrypt 5)).seq.state = .run ∧ (withNonce n (at_ .decrypt 5)).macroStep? = some .performDec) ∧
    (withNonce 255 (at_ .encrypt 6)).ses.nonce.length ≤ 255 ∧ ¬(withNonce 256 (at_ .encrypt 6)).ses.nonce.length ≤ 255 ∧
    (withNonce 255 (at_ .decrypt 5)).ses.nonce.length ≤ 255 ∧ ¬(withNonce 256 (at_ .decrypt 5)).ses.nonce.length ≤ 255 ∧
    (at_ .hash 3).seq.state = .run ∧ (at_ .hash 3).macroStep? = some .performHash ∧
    (at_ .status 1).seq.state = .run ∧ (at_ .status 1).macroStep? = some .sendStatus := by
  simp only [withNonce, List.length_replicate]
  exact ⟨fun _ => ⟨rfl, rfl, rfl, rfl⟩, by decide⟩

theorem hyp_OverlongAppendsFail : 255 < (List.replicate 256 0 : Bytes).length := by rw [List.length_replicate]; decide

/-- At the bound, without a bound, and one byte beyond the bound. -/
theorem hyp_DataFramesInADrain : (drainingBounded.readSite? = some .drain ∧
      ∀ m, drainingBounded.par.maxResultLen = some m → drainingBounded.acc.result.length + (data [4]).payload.length ≤ m) ∧
    (draining.readSite? = some .drain ∧ draining.par.maxResultLen = none) ∧
    (drainingBounded.par.maxResultLen = some 4 ∧ 4 < drainingBounded.acc.result.length + (data [4, 5]).payload.length) := by
  refine ⟨⟨by decide, fun m h => ?_⟩, by decide, by decide⟩
  cases h; decide

/-- Both outcomes under both polarities, and no payload. -/
theorem hyp_TerminatorsInADrain :
    (draining.readSite? = some .drain ∧ draining.par.termFailOn = .mismatch ∧
      (status 1).payload[0]? = some 1 ∧ draining.acc.nchunk % 256 = (1 : Byte).toNat ∧
      (status 2).payload[0]? = some 2 ∧ draining.acc.nchunk % 256 ≠ (2 : Byte).toNat) ∧
    (drainingMatch.readSite? = some .drain ∧ drainingMatch.par.termFailOn = .equal ∧
      drainingMatch.acc.nchunk % 256 ≠ (2 : Byte).toNat ∧ drainingMatch.acc.nchunk % 256 = (1 : Byte).toNat) ∧
    (data []).payload = [] := by decide

theorem hyp_ErrorFramesFail : draining.readSite? = some .drain ∧ readingStatus.readSite? = some .statusResponse ∧
    (data []).payload = [] ∧ (status 0).payload[0]? = some 0 ∧ (status 1).payload[0]? = some 1 ∧ (1 : Byte) ≠ 0 := by decide

theorem hyp_AcknowledgmentPasses : (status 0).payload[0]? = some 0 ∧
    ((uploading 0 .ackClear 0).seq.state = .run ∧ (uploading 0 .ackClear 0).macroStep? = some (.upload .input) ∧
      (uploading 0 .ackClear 0).seg.phase = .ackClear ∧ (uploading 0 .ackClear 0).uploadBuffer = []) ∧
    ((uploading 101 .ackAppend 101).seq.state = .run ∧
      (uploading 101 .ackAppend 101).macroStep? = some (.upload .input) ∧
      (uploading 101 .ackAppend 101).seg.phase = .ackAppend ∧
      (uploading 101 .ackAppend 101).seg.off = (uploading 101 .ackAppend 101).uploadBuffer.length) ∧
    (readingFinalAck.seq.state = .run ∧ readingFinalAck.macroStep? = some (.ack .finalAck)) := by decide

/-- Vectors AK2, AK3, AK10, AK4, AK8. -/
theorem hyp_AcknowledgmentFailures : (uploading 5 .ackClear 0).readSite? = some (.ack .setInput) ∧
    ((answered none readingFinalAck).readSite? = some (.ack .finalAck) ∧ (answered none readingFinalAck).linkAnswer = none) ∧
    ((answered (some [0x00, 0x65, 0x01]) readingFinalAck).readSite? = some (.ack .finalAck) ∧
      (answered (some [0x00, 0x65, 0x01]) readingFinalAck).linkAnswer = some [0x00, 0x65, 0x01]) ∧
    ((answered (some [0x00, 0x72, 0x00, 0xCC]) readingFinalAck).linkAnswer = some [0x00, 0x72, 0x00, 0xCC] ∧
      splitFrame [0x00, 0x72, 0x00, 0xCC] = some (0x72, ⟨0x00, 0x00, [], [0xCC]⟩)) ∧
    ((answered (some [0x00, 0x65, 0x01, 0x00]) readingFinalAck).linkAnswer = some [0x00, 0x65, 0x01, 0x00] ∧
      splitFrame [0x00, 0x65, 0x01, 0x00] = some (0x65, ⟨0x00, 0x01, [], [0x00]⟩)) ∧
    ((answered (some (rawStatus 0xFF)) readingFinalAck).linkAnswer = some (rawStatus 0xFF) ∧
      splitFrame (rawStatus 0xFF) = some (0x65, status 0xFF) ∧ (status 0xFF).payload[0]? = some 0xFF) := by decide

theorem hyp_UnfilledReadsFail :
    ((answered none draining).readSite? = some .drain ∧ (answered none draining).linkAnswer = none) ∧
    ((answered (some [0x00, 0x72, 0x01]) readingStatus).readSite? = some .statusResponse ∧
      (answered (some [0x00, 0x72, 0x01]) readingStatus).linkAnswer = some [0x00, 0x72, 0x01]) := by decide

/-- Reads of 0, 3 and 4 bytes. -/
theorem hyp_ReadsWriteRxf :
    ((answered none draining).readSite? = some .drain ∧ (answered none draining).linkAnswer = none ∧
      (after (step (answered none draining))).isSome = true) ∧
    ((answered (some [0x00, 0x72, 0x01]) readingStatus).readSite? = some .statusResponse ∧
      (after (step (answered (some [0x00, 0x72, 0x01]) readingStatus))).isSome = true) ∧
    ((answered (some [0x00, 0x65, 0x01, 0x00]) readingFinalAck).readSite? = some (.ack .finalAck) ∧
      ([0x00, 0x65, 0x01, 0x00] : Bytes)[1]? = some 0x65 ∧ ([0x00, 0x65, 0x01, 0x00] : Bytes)[2]? = some 0x01 ∧
      (after (step (answered (some [0x00, 0x65, 0x01, 0x00]) readingFinalAck))).isSome = true) := by decide

/-- Vectors AC11, Q10. -/
theorem hyp_UnexpectedTagsFail :
    ((answered (some [0x00, 0x41, 0x01, 0x00, 0xCC, 0x00]) draining).readSite? = some .drain ∧
      (answered (some [0x00, 0x41, 0x01, 0x00, 0xCC, 0x00]) draining).linkAnswer = some [0x00, 0x41, 0x01, 0x00, 0xCC, 0x00] ∧
      splitFrame [0x00, 0x41, 0x01, 0x00, 0xCC, 0x00] = some (0x41, ⟨0x00, 0x01, [0x00], [0xCC, 0x00]⟩)) ∧
    ((answered (some (rawCount 0)) readingStatus).readSite? = some .statusResponse ∧
      (answered (some (rawCount 0)) readingStatus).linkAnswer = some (rawCount 0) ∧
      splitFrame (rawCount 0) = some (0x74, status 0)) := by decide

theorem hyp_StatusResponseSetsFlags : readingStatus.readSite? = some .statusResponse ∧
    (data [0x02, 0x00]).payload[0]? = some 0x02 ∧ (data [0x02, 0x00]).payload[1]? = some 0x00 ∧
    (data [0x01]).payload.length < 2 := by decide

theorem hyp_NoFrameIsTakenOutsideARead : base.readSite? = none ∧ (at_ .encrypt 5).readSite? = none := by decide

theorem hyp_HostOperationsAccepted : base.seq.state = .idle ∧ draining.seq.state = .run := by decide

theorem hyp_RequestsAreHeldInRun : draining.seq.state = .run := rfl

/-- The host's script says that it presents nothing. -/
def quiet : State := { base with env := { base.env with host := [none] } }

theorem hyp_IdleWaits : quiet.seq.state = .idle ∧ quiet.hostAnswer = none := by decide

/-- The reset state with a construction that the host presents next. -/
def constructing (s : State) : State := { s with env := { s.env with host := [some (.construct base.cfg)] } }

theorem hyp_ConstructionOnce :
    ((constructing State.reset).seq.state = .idle ∧ (constructing State.reset).hostAnswer = some (.construct base.cfg) ∧
      (constructing State.reset).bind.linkBound = false) ∧
    ((constructing base).hostAnswer = some (.construct base.cfg) ∧ (constructing base).bind.linkBound = true) := by decide

/-- Vectors SG8 and SG9: 256 is the maximum, 257 is beyond it. -/
theorem hyp_CheckPhase : (uploading 256 .check 0).seq.state = .run ∧
    (uploading 256 .check 0).macroStep? = some (.upload .input) ∧ (uploading 256 .check 0).seg.phase = .check ∧
    (uploading 256 .check 0).ses.input.length ≤ (uploading 256 .check 0).cfg.maxInputLen ∧
    (uploading 257 .check 0).cfg.maxInputLen < (uploading 257 .check 0).ses.input.length := by
  refine ⟨rfl, rfl, rfl, ?_, ?_⟩
  · show (List.replicate 256 (0 : Byte)).length ≤ 256; rw [List.length_replicate]
  · show 256 < (List.replicate 257 (0 : Byte)).length; rw [List.length_replicate]; decide

theorem hyp_SendClearPhase : (uploading 0 .sendClear 0).seq.state = .run ∧
    (uploading 0 .sendClear 0).macroStep? = some (.upload .input) ∧ (uploading 0 .sendClear 0).seg.phase = .sendClear ∧
    (uploading 0 .sendClear 0).seg.role = .input := by decide

theorem hyp_SendAppendPhase : (uploading 101 .sendAppend 100).seq.state = .run ∧
    (uploading 101 .sendAppend 100).macroStep? = some (.upload .input) ∧
    (uploading 101 .sendAppend 100).seg.phase = .sendAppend ∧ (uploading 101 .sendAppend 100).seg.role = .input ∧
    min 100 ((uploading 101 .sendAppend 100).ses.input.length - 100) = 1 := by decide

theorem hyp_UploadDonePhase : (uploading 1 .done 1).macroStep? = some (.upload .input) ∧ (uploading 1 .done 1).seg.phase = .done ∧
    (program .encrypt)[1 + 1]? = some (.upload .key) ∧
    ({ uploading 1 .done 1 with seq := { state := .run, op := .hash, pc := 1 } } : State).macroStep? = some (.upload .input) ∧
    (program .hash)[1 + 1]? = some .arm := by decide

theorem hyp_FlushAndArmSteps : (at_ .encrypt 0).macroStep? = some .flush ∧ (at_ .status 0).macroStep? = some .flush ∧
    (at_ .encrypt 5).macroStep? = some .arm := by decide

theorem hyp_NonceStep : (at_ .encrypt 4).seq.state = .run ∧ (at_ .encrypt 4).macroStep? = some .nonce ∧
    (at_ .encrypt 4).ses.nonce = [] ∧
    ({ at_ .decrypt 4 with ses := { Session.reset with nonce := [0xA0] } } : State).macroStep? = some .nonce := by decide

theorem hyp_CaptureAndTraceSteps : (at_ .encrypt 9).macroStep? = some .capture ∧ (at_ .hash 7).macroStep? = some .trace ∧
    ({ at_ .encrypt 9 with env := { base.env with capture := [true] } } : State).captureAnswer = true ∧
    ({ at_ .encrypt 9 with env := { base.env with capture := [false] } } : State).captureAnswer = false := by decide

theorem hyp_CompleteStep : (at_ .encrypt 11).macroStep? = some .complete ∧ (at_ .hash 8).macroStep? = some .complete ∧
    (at_ .decrypt 8).macroStep? = some .complete ∧ (at_ .status 4).macroStep? = some .complete := by decide

theorem hyp_DrainDoneStep : ({ at_ .hash 4 with acc := { draining.acc with state := .done } } : State).macroStep? = some .drain ∧
    ({ at_ .hash 4 with acc := { draining.acc with state := .done } } : State).acc.state = .done := by decide

/-! ### States that meet the invariants, and steps from them -/

theorem hyp_SafeStatesStepToSafeStates : draining.Safe ∧ (at_ .encrypt 11).Safe := by
  unfold State.Safe State.PcOk State.DrainOk; decide

/-- 101 bytes with 100 of them sent, and the last append sent. -/
theorem hyp_StepKeepsSegmenterInvariant : (uploading 101 .sendAppend 100).SegOk ∧
    (∃ t, step (uploading 101 .sendAppend 100) = .next t) ∧ (uploading 101 .ackAppend 101).SegOk :=
  ⟨⟨by decide, by decide, by decide⟩, ⟨_, rfl⟩, ⟨by decide, by decide, .inl (by decide)⟩⟩

/-- A failed operation's record, which the next request clears. -/
theorem hyp_StepKeepsErrorRecord :
    ({ draining.fail .protocol .fetchResult 0x05 with env := (requested 0).env } : State).ErrOk ∧
    (∃ t, step ({ draining.fail .protocol .fetchResult 0x05 with env := (requested 0).env } : State) = .next t) :=
  ⟨.inr ⟨rfl, rfl, ⟨.inr (.inl rfl), by decide⟩, by decide⟩, ⟨_, rfl⟩⟩

/-- A send that awaits its read. -/
theorem hyp_StepKeepsSendReadAlternation :
    ({ answered none (uploading 5 .ackClear 0) with hist := [.flush, .send 0x69 0x01 []] } : State).LinkOk ∧
    (∃ t, step ({ answered none (uploading 5 .ackClear 0) with hist := [.flush, .send 0x69 0x01 []] } : State) = .next t) :=
  ⟨⟨true, rfl, fun _ => rfl⟩, ⟨_, rfl⟩⟩

/-- At COMPLETE of a status query, after an operation that failed. -/
def failedBefore : State :=
  { at_ .status 4 with hist := [.respond (failResponse (failRecord base.par .protocol .finalAck 0x05))] }

theorem hyp_StepKeepsResponsesWhole : failedBefore.ResponsesOk ∧ (∃ t, step failedBefore = .next t) := by
  refine ⟨fun r h => ?_, ⟨_, rfl⟩⟩
  cases List.mem_singleton.1 h
  exact ⟨fun h => (nomatch h), fun _ => ⟨rfl, rfl, rfl, rfl, rfl, rfl, rfl⟩⟩

theorem hyp_StepKeepsResultBound : (answered (some (rawData [4])) drainingBounded).ResultOk ∧
    (∃ t, step (answered (some (rawData [4])) drainingBounded) = .next t) := by
  refine ⟨fun m h => ?_, ⟨_, rfl⟩⟩
  cases h; decide

/-- Before the construction and after it. -/
theorem hyp_StepKeepsFlashedOnce : (constructing State.reset).FlashOk ∧ (∃ t, step (constructing State.reset) = .next t) ∧
    ({ base with hist := [.flash] } : State).FlashOk := ⟨⟨rfl, rfl⟩, ⟨_, rfl⟩, ⟨rfl, rfl⟩⟩

/-- A step of a running operation that ends it, one that does not, and one in `IDLE`. -/
theorem hyp_OneResponsePerOperation :
    (∃ t, step (at_ .status 4) = .next t ∧ t.seq.state = .idle) ∧
    (∃ t, step (answered (some (rawData [4])) draining) = .next t ∧ t.seq.state = .run) ∧
    (quiet.seq.state = .idle ∧ ∃ t, step quiet = .next t) := ⟨⟨_, rfl, rfl⟩, ⟨_, rfl, rfl⟩, rfl, ⟨_, rfl⟩⟩

theorem hyp_OneInteractionPerStep : ∃ t, step (at_ .status 4) = .next t := ⟨_, rfl⟩

theorem hyp_AccumulatorTransitions : ∃ t, step (answered (some (rawCount 2)) draining) = .next t ∧ t.acc.state = .failed :=
  ⟨_, rfl, rfl⟩

theorem hyp_ConfigurationIsFixed : (constructing base).bind.linkBound = true ∧ ∃ t, step (constructing base) = .next t :=
  ⟨rfl, ⟨_, rfl⟩⟩

theorem hyp_RecordsStayUntilAcceptance : quiet.seq.state = .idle ∧ quiet.bind.linkBound = true ∧
    ∃ t, step quiet = .next t ∧ t.seq.state = .idle := ⟨rfl, rfl, ⟨_, rfl, rfl⟩⟩

theorem hyp_OnlyListedCommandsAreSent : (uploading 101 .sendAppend 100).SegOk ∧
    ∃ t, step (uploading 101 .sendAppend 100) = .next t ∧
      t.hist = (uploading 101 .sendAppend 100).hist ++ [.send 0x69 0x00 [0x00]] :=
  ⟨hyp_StepKeepsSegmenterInvariant.1, ⟨_, rfl, rfl⟩⟩

theorem hyp_InstrumentCalledOnlyInItsMacroSteps : ∃ t, step (at_ .encrypt 5) = .next t ∧
    t.hist = (at_ .encrypt 5).hist ++ [.arm] ∧ Event.arm ∈ [Event.arm] ∧ Event.arm.isInstrument = true :=
  ⟨_, rfl, rfl, by decide, rfl⟩

/-! ### Whole macro-steps and operations -/

/-- `ACK0`. -/
def ack0 : Bytes := rawStatus 0x00

theorem ack0_passes : passesAck ack0 := ⟨status 0, by decide, by decide⟩

theorem acks_pass (n : Nat) : ∀ raw ∈ List.replicate n ack0, passesAck raw := fun _ h =>
  (List.eq_of_mem_replicate h) ▸ ack0_passes

/-- The answers to a drain: two chunks and their terminator, then an acknowledgment (vector AC2). -/
def drainAnswers : List Bytes := [rawData [0x11, 0x22], rawData [0x33]] ++ [rawCount 2] ++ [ack0]

/-- The one sample that the OPEN type is known to have (log 9). -/
def sample0 : Sample := ⟨0, .inl rfl⟩

/-- `base` with a pending request, link answers, a capture without timeout and a trace of one sample. -/
def operating (r : HostRequest) (link : List Bytes) : State :=
  { base with
    env := { held := [r], host := [], link := link.map some ++ [none], capture := [false], trace := [[sample0]], entropy := [],
             draws := 0 } }

theorem drain_answers_ok : resultOf [rawData [0x11, 0x22], rawData [0x33]] = some [0x11, 0x22, 0x33] ∧
    terminatorCount (rawCount 2) = some 2 ∧ terminatorFails base.par.termFailOn 2 2 = false ∧
    base.par.maxResultLen = none := by decide

/-- 101 bytes: a clear, two appends, three acknowledgments (vector SG5). -/
def uploading101 : State :=
  { uploading 101 .check 0 with env := { base.env with link := (List.replicate 3 ack0).map some } }

theorem hyp_UploadRuns :
    uploading101.seq.state = .run ∧ uploading101.macroStep? = some (.upload .input) ∧
    uploading101.seg = { phase := .check, role := .input, off := 0 } ∧
    (uploading101.ses.buffer .input).length ≤ Role.input.maxLen uploading101.cfg ∧
    (List.replicate 3 ack0).length = 1 + ((uploading101.ses.buffer .input).length + 99) / 100 ∧
    (∀ raw ∈ List.replicate 3 ack0, passesAck raw) ∧ uploading101.env.link = (List.replicate 3 ack0).map some ++ [] :=
  ⟨rfl, rfl, rfl, by decide, by decide, acks_pass 3, by decide⟩

/-- At the entry of a drain that gets `drainAnswers`. -/
def drainEntry : State := { at_ .encrypt 7 with env := (operating ⟨0, ⟨[], [], [], []⟩⟩ drainAnswers).env }

theorem hyp_DrainRuns : drainEntry.seq.state = .run ∧ drainEntry.macroStep? = some .drain ∧
    drainEntry.acc = { state := .awaiting, result := [], nchunk := 0 } ∧
    resultOf [rawData [0x11, 0x22], rawData [0x33]] = some [0x11, 0x22, 0x33] ∧ terminatorCount (rawCount 2) = some 2 ∧
    terminatorFails drainEntry.par.termFailOn 2 2 = false ∧ drainEntry.par.maxResultLen = none ∧
    drainEntry.env.link = ([rawData [0x11, 0x22], rawData [0x33]] ++ [rawCount 2]).map some ++ [some ack0, none] := by decide

/-! The three operations with a drain share its answers: `drain_answers_ok`. -/

def encrypting : State :=
  operating ⟨0, ⟨[1], [2], [], []⟩⟩ (List.replicate 5 ack0 ++ drainAnswers)

/-- The empty associated data still takes one acknowledgment (example X4); the empty nonce is drawn. -/
theorem hyp_EncryptOperationRuns :
    encrypting.seq.state = .idle ∧ encrypting.hostAnswer = some (.request ⟨0, ⟨[1], [2], [], []⟩⟩) ∧
    1 ≤ encrypting.cfg.maxInputLen ∧ 1 ≤ encrypting.cfg.keyLen ∧ 0 ≤ encrypting.cfg.maxAdLen ∧ encrypting.cfg.nonceLen ≤ 255 ∧
    (∀ raw ∈ List.replicate 2 ack0 ++ List.replicate 2 ack0 ++ List.replicate 1 ack0 ++ [ack0], passesAck raw) ∧
    encrypting.env.link = (List.replicate 2 ack0 ++ List.replicate 2 ack0 ++ List.replicate 1 ack0 ++
      [rawData [0x11, 0x22], rawData [0x33]] ++ [rawCount 2] ++ [ack0]).map some ++ [none] ∧
    encrypting.env.capture = [false] ∧ encrypting.env.trace = [[sample0]] := by
  exact ⟨rfl, rfl, by decide, by decide, by decide, by decide, acks_pass 6, by decide, rfl, rfl⟩

def decrypting : State :=
  operating ⟨1, ⟨[1], [2], [], [0xA0]⟩⟩ (List.replicate 5 ack0 ++ drainAnswers)

theorem hyp_DecryptOperationRuns :
    decrypting.seq.state = .idle ∧ decrypting.hostAnswer = some (.request ⟨1, ⟨[1], [2], [], [0xA0]⟩⟩) ∧
    1 ≤ decrypting.cfg.maxInputLen ∧ 1 ≤ decrypting.cfg.keyLen ∧ 0 ≤ decrypting.cfg.maxAdLen ∧ decrypting.cfg.nonceLen ≤ 255 ∧
    (∀ raw ∈ List.replicate 2 ack0 ++ List.replicate 2 ack0 ++ List.replicate 1 ack0 ++ [ack0], passesAck raw) ∧
    decrypting.env.link = (List.replicate 2 ack0 ++ List.replicate 2 ack0 ++ List.replicate 1 ack0 ++
      [rawData [0x11, 0x22], rawData [0x33]] ++ [rawCount 2] ++ [ack0]).map some ++ [none] := by
  exact ⟨rfl, rfl, by decide, by decide, by decide, by decide, acks_pass 6, by decide⟩

def hashing : State :=
  operating ⟨2, ⟨[1], [], [], []⟩⟩ (List.replicate 2 ack0 ++ drainAnswers)

theorem hyp_HashOperationRuns :
    hashing.seq.state = .idle ∧ hashing.hostAnswer = some (.request ⟨2, ⟨[1], [], [], []⟩⟩) ∧ 1 ≤ hashing.cfg.maxInputLen ∧
    (∀ raw ∈ List.replicate 2 ack0 ++ [ack0], passesAck raw) ∧
    hashing.env.link = (List.replicate 2 ack0 ++ [rawData [0x11, 0x22], rawData [0x33]] ++ [rawCount 2] ++ [ack0]).map some ++
      [none] ∧
    hashing.env.capture = [false] ∧ hashing.env.trace = [[sample0]] := by
  exact ⟨rfl, rfl, by decide, acks_pass 3, by decide, rfl, rfl⟩

def querying : State :=
  operating ⟨3, ⟨[], [], [], []⟩⟩ [rawData [0x01, 0x00], ack0]

/-- Program P3. -/
theorem hyp_StatusOperationRuns :
    querying.seq.state = .idle ∧ querying.hostAnswer = some (.request ⟨3, ⟨[], [], [], []⟩⟩) ∧
    dataPayload (rawData [0x01, 0x00]) = some [0x01, 0x00] ∧ passesAck ack0 ∧
    querying.env.link = [some (rawData [0x01, 0x00]), some ack0, none] := by
  exact ⟨rfl, rfl, by decide, ack0_passes, by decide⟩

end Sys2Proof.Tests
end

section
/-! The result bound (20_memory.md R82): only an accepted chunk makes `ACC.RESULT` longer, and it is accepted only when
`MAX_RESULT_LEN` allows it (42_accumulator.md R202). -/

namespace Sys2Proof.Machine

/-! ### What the shared operations do to the bound -/

/-- The bound looks at the parameters and the length of the result, so a result that does not grow stays within it. -/
theorem State.ResultOk.of_length_le {s t : State} (h : s.ResultOk) (hpar : t.par = s.par)
    (hlen : t.acc.result.length ≤ s.acc.result.length) : t.ResultOk :=
  fun m hm => hlen.trans (h m (hpar ▸ hm))

/-- A state with the parameters and the Accumulator of one within the bound is within it. -/
theorem State.ResultOk.of_acc_eq {s t : State} (h : s.ResultOk) (hpar : t.par = s.par) (hacc : t.acc = s.acc) :
    t.ResultOk :=
  h.of_length_le hpar (hacc ▸ le_rfl)

theorem State.ResultOk.of_result_nil {s : State} (h : s.acc.result = []) : s.ResultOk :=
  fun m _ => h ▸ Nat.zero_le m

theorem State.ResultOk.emit {s : State} (h : s.ResultOk) (e : Event) : (s.emit e).ResultOk :=
  h.of_acc_eq (s.emit_par e) (s.emit_acc e)

/-- A failure keeps the partial result (60_exceptions.md R280). -/
@[simp] theorem State.fail_acc_result (cls : ErrClass) (stage : Stage) (code : Byte) (s : State) :
    (s.fail cls stage code).acc.result = s.acc.result := by
  rw [State.fail_acc]; split <;> rfl

theorem State.ResultOk.fail {s : State} (h : s.ResultOk) (cls : ErrClass) (stage : Stage) (code : Byte) :
    (s.fail cls stage code).ResultOk :=
  h.of_length_le rfl (by rw [State.fail_acc_result])

/-- Advancing keeps the result, or empties it at the entry of a DRAIN (42_accumulator.md R200). -/
theorem State.ResultOk.advance {s : State} (h : s.ResultOk) : s.advance.ResultOk := by
  obtain ⟨-, hacc⟩ | ⟨-, hacc⟩ := s.advance_acc
  · exact .of_result_nil (by rw [hacc])
  · exact h.of_acc_eq s.advance_par hacc

theorem State.ResultOk.ackPassed {s : State} (h : s.ResultOk) : s.ackPassed.ResultOk := by
  unfold State.ackPassed
  split
  · exact h.of_acc_eq rfl rfl
  · exact h.advance

/-- A construction changes nothing or resets the Accumulator (70_reset_and_hazards.md R311). -/
theorem State.ResultOk.construct {s : State} (h : s.ResultOk) (cfg : LinkConfig) : (s.construct cfg).ResultOk := by
  cases hb : s.bind.linkBound with
  | true => rwa [State.construct_of_bound hb]
  | false => exact .of_result_nil (by rw [State.construct_of_unbound hb]; rfl)

/-! ### Reads and steps -/

/-- A read keeps the bound. The chunk case is the one where the result grows, and its guard is the bound. -/
theorem ReadTo.keeps_resultOk {site : ReadSite} {s t : State} (h : ReadTo site s t) (hs : s.ResultOk) : t.ResultOk := by
  cases h with
  | failed r cls code hr _ =>
    have hlatched : r.ResultOk := by
      obtain ⟨tag, f, rfl⟩ | ⟨n, rfl⟩ := hr <;> exact hs.of_acc_eq rfl rfl
    exact hlatched.fail _ _ _
  | acked f _ _ =>
    have hlatched : (s.latchFrame tagE f).ResultOk := hs.of_acc_eq rfl rfl
    exact hlatched.ackPassed
  | chunk f _ hfits =>
    intro m hm
    calc (s.acc.result ++ f.payload).length
        = s.acc.result.length + f.payload.length := List.length_append
      _ ≤ m := (resultOverflows_false_iff ..).1 hfits m hm
  | terminator _ _ => exact hs.of_length_le rfl le_rfl
  | flags f a b _ => exact State.ResultOk.advance (hs.of_acc_eq rfl rfl)

/-- A step that is no read fails, advances, empties the result, or leaves the Accumulator as it is. -/
theorem StepTo.keeps_resultOk {s t : State} (h : StepTo s t) (hs : s.ResultOk) : t.ResultOk := by
  have same {u : State} (hpar : u.par = s.par) (hacc : u.acc = s.acc) : u.ResultOk := hs.of_acc_eq hpar hacc
  cases h with
  | accepted op a _ => exact .of_result_nil rfl
  | constructed cfg _ => exact (same s.afterHost_par s.afterHost_acc).construct cfg
  | waited _ => exact same s.afterHost_par s.afterHost_acc
  | flushed _ _ => exact (hs.emit _).advance
  | checkFailed _ _ _ _ _ => exact hs.fail _ _ _
  | checked _ _ _ _ _ => exact same rfl rfl
  | clearSent _ _ _ _ => exact same rfl rfl
  | appendSent _ _ _ _ => exact same rfl rfl
  | uploaded _ _ _ _ => exact hs.advance
  | nonceDrawn _ _ _ => exact (same (s.drawNonce_par _) (s.drawNonce_acc _)).advance
  | nonceKept _ _ _ => exact hs.advance
  | armed _ _ => exact (hs.emit _).advance
  | nonceTooLong _ _ _ => exact hs.fail _ _ _
  | encryptSent _ _ _ => exact (hs.emit _).advance
  | decryptSent _ _ _ => exact (hs.emit _).advance
  | hashSent _ _ => exact (hs.emit _).advance
  | statusSent _ _ => exact (hs.emit _).advance
  | read site _ _ hread => exact hread.keeps_resultOk (same (s.afterRead_par _) (s.afterRead_acc _))
  | drained _ _ _ => exact hs.advance
  | captureFailed _ _ _ => exact (same s.afterCapture_par s.afterCapture_acc).fail _ _ _
  | captured _ _ _ => exact (same s.afterCapture_par s.afterCapture_acc).advance
  | traced _ _ => exact (same s.afterTrace_par s.afterTrace_acc).advance
  | completed _ _ => exact same s.completeStep_par s.completeStep_acc

/-- Settles O43: the inversion of `step` leaves one case in which the result grows, the accepted chunk. -/
theorem stepKeepsResultBound : Obligations.StepKeepsResultBound :=
  fun _ _ hs h => (step_to h).keeps_resultOk hs

end Sys2Proof.Machine
end

section
/-! Reads and `RXF` (40_frame_codec.md R142, R145, R147): an unfilled read fails with the sentinel in `RXF`; after a filled
one, what the read site does with the frame leaves `RXF` as it was latched and the read in the history. -/

namespace Sys2Proof

/-! ### DECODE by position -/

/-- A read without a frame is unfilled with its raw length (40_frame_codec.md R142). -/
theorem decodeRsp_of_split_none {raw : Bytes} (h : splitFrame raw = none) :
    decodeRsp raw = .error (.unfilled raw.length) := by
  unfold decodeRsp; rw [h]

theorem split_none_of_decodeRsp {raw : Bytes} {n : Nat} (h : decodeRsp raw = .error (.unfilled n)) :
    splitFrame raw = none := by
  unfold decodeRsp at h
  split at h
  · assumption
  · split_ifs at h
    cases h

/-- A read of at least `FRAME_MIN` bytes holds a frame whose fields stand at their positions (40_frame_codec.md R142). -/
theorem splitFrame_by_position {raw : Bytes} {tag declLen : Byte} (hlen : 4 ≤ raw.length) (htag : raw[1]? = some tag)
    (hdecl : raw[2]? = some declLen) :
    ∃ f, splitFrame raw = some (tag, f) ∧ f.declLen = declLen ∧ f.payload = (raw.drop 3).take (raw.length - 5) ∧
      f.rawLen = raw.length := by
  match raw, hlen, htag, hdecl with
  | start :: _ :: _ :: rest, hlen, rfl, rfl =>
    have hrest : 1 ≤ rest.length := by simpa using hlen
    refine ⟨_, splitFrame_of_le start tag declLen rest hrest, rfl, ?_, ?_⟩
    · rw [slice_eq_take_drop]; rfl
    · simp only [Frame.rawLen, Machine.slice_length, List.length_drop, List.length_cons]
      omega

end Sys2Proof

namespace Sys2Proof.Machine

/-! ### Unfilled reads -/

/-- `EMPTY` at a read site fails with `LOCAL_TIMEOUT` (40_frame_codec.md R147). -/
theorem step_of_empty_read {s : State} {site : ReadSite} (hsite : s.readSite? = some site) (h : s.linkAnswer = none) :
    step s = .next ((s.afterRead site.timeoutClass).unfilledRead site 0) := by
  simp only [step, activity_of_readSite hsite, State.readActivity, h]

/-- So does a read that DECODE finds unfilled. -/
theorem step_of_unfilled_read {s : State} {site : ReadSite} (hsite : s.readSite? = some site) {raw : Bytes}
    (h : s.linkAnswer = some raw) (hsplit : splitFrame raw = none) :
    step s = .next ((s.afterRead site.timeoutClass).unfilledRead site raw.length) := by
  simp only [step, activity_of_readSite hsite, State.readActivity, h, decodeRsp_of_split_none hsplit]

/-- Settles O19: `EMPTY`, and a read shorter than `FRAME_MIN`, which DECODE finds unfilled. -/
theorem unfilledReadsFail : Obligations.UnfilledReadsFail :=
  fun _ _ hsite => ⟨step_of_empty_read hsite, fun raw h hlen => step_of_unfilled_read hsite h (splitFrame_of_lt raw hlen)⟩

/-! ### What follows a latched frame in the same step -/

/-- `t` has the `RXF` of `s`, and all that had happened in `s`. -/
structure KeepsRead (s t : State) : Prop where
  rxf : t.rxf = s.rxf
  hist : s.hist <+: t.hist

theorem KeepsRead.of_eq {s t : State} (hrxf : t.rxf = s.rxf) (hhist : t.hist = s.hist) : KeepsRead s t :=
  ⟨hrxf, hhist ▸ List.prefix_rfl⟩

/-- A failure adds its response. -/
theorem KeepsRead.fail (cls : ErrClass) (stage : Stage) (code : Byte) (s : State) :
    KeepsRead s (s.fail cls stage code) :=
  ⟨s.fail_rxf .., s.fail_hist .. ▸ List.prefix_append ..⟩

theorem KeepsRead.acknowledge (stage : Stage) (f : Frame) (s : State) : KeepsRead s (s.acknowledge stage f) := by
  have hpassed : KeepsRead s s.ackPassed := by
    obtain ⟨-, -, -, hrxf, -, -, -, -, -, hhist, -⟩ := s.ackPassed_frame
    exact .of_eq hrxf hhist
  unfold State.acknowledge
  split
  · exact .fail ..
  · split
    · exact hpassed
    · exact .fail ..

theorem KeepsRead.errorFrame (stage : Stage) (f : Frame) (s : State) : KeepsRead s (s.errorFrame stage f) := by
  unfold State.errorFrame
  split
  · exact .fail ..
  · split <;> exact .fail ..

theorem KeepsRead.acceptChunk (f : Frame) (s : State) : KeepsRead s (s.acceptChunk f) := by
  unfold State.acceptChunk
  split
  · exact .fail ..
  · exact .of_eq rfl rfl

theorem KeepsRead.acceptTerminator (f : Frame) (s : State) : KeepsRead s (s.acceptTerminator f) := by
  unfold State.acceptTerminator
  split
  · exact .fail ..
  · split
    · exact .fail ..
    · exact .of_eq rfl rfl

theorem KeepsRead.acceptFlags (f : Frame) (s : State) : KeepsRead s (s.acceptFlags f) := by
  unfold State.acceptFlags
  split
  · exact .fail ..
  · exact .of_eq (State.advance_rxf _) (State.advance_hist _)

/-! ### Filled reads -/

section Exec
variable {s t : State} {site : ReadSite} {f : Frame}

theorem exec_rspR_keepsRead (hsite : s.readSite? = some site) (h : exec (.rspR f) s = .next t) :
    KeepsRead (s.latchFrame tagR f) t := by
  simp only [exec, execRspR, hsite] at h
  cases site <;> cases h
  case ack => exact .fail ..
  case drain => exact .acceptChunk ..
  case statusResponse => exact .acceptFlags ..

theorem exec_rspE_keepsRead (hsite : s.readSite? = some site) (h : exec (.rspE f) s = .next t) :
    KeepsRead (s.latchFrame tagE f) t := by
  simp only [exec, execRspE, hsite] at h
  cases site <;> cases h
  case ack => exact .acknowledge ..
  case drain => exact .errorFrame ..
  case statusResponse => exact .errorFrame ..

theorem exec_rspT_keepsRead (hsite : s.readSite? = some site) (h : exec (.rspT f) s = .next t) :
    KeepsRead (s.latchFrame tagT f) t := by
  simp only [exec, execRspT, hsite] at h
  cases site <;> cases h
  case ack => exact .fail ..
  case drain => exact .acceptTerminator ..
  case statusResponse => exact .fail ..

end Exec

/-- A filled frame is latched by position, whatever its tag: one of the three classes is then run, any other tag rejected
(40_frame_codec.md R145, 30_encoding.md R106). -/
theorem step_of_filled_read {s t : State} {site : ReadSite} (hsite : s.readSite? = some site) {raw : Bytes} {tag : Byte}
    {f : Frame} (h : s.linkAnswer = some raw) (hsplit : splitFrame raw = some (tag, f)) (hstep : step s = .next t) :
    KeepsRead ((s.afterRead site.timeoutClass).latchFrame tag f) t := by
  have hsite' : (s.afterRead site.timeoutClass).readSite? = some site := hsite
  simp only [step, activity_of_readSite hsite, State.readActivity, h] at hstep
  cases hd : decodeRsp raw with
  | ok i =>
    rw [hd] at hstep
    obtain ⟨g, ⟨hg, rfl⟩ | ⟨hg, rfl⟩ | ⟨hg, rfl⟩⟩ := decodeRsp_ok hd <;> cases hsplit.symm.trans hg
    · exact exec_rspR_keepsRead hsite' hstep
    · exact exec_rspE_keepsRead hsite' hstep
    · exact exec_rspT_keepsRead hsite' hstep
  | error e =>
    rw [hd] at hstep
    cases e with
    | unfilled n => cases hsplit.symm.trans (split_none_of_decodeRsp hd)
    | otherTag tag' g =>
      cases hsplit.symm.trans (decodeRsp_otherTag hd).1
      cases hstep
      exact .fail ..

/-! ### Every read -/

/-- Whatever the answer, the step's first event is the read with its answer (40_frame_codec.md R145). -/
theorem step_records_read {s t : State} {site : ReadSite} (hsite : s.readSite? = some site) (hstep : step s = .next t) :
    s.hist ++ [.read site.timeoutClass s.linkAnswer] <+: t.hist := by
  have unfilled {n : Nat} (h : step s = .next ((s.afterRead site.timeoutClass).unfilledRead site n)) :
      s.hist ++ [.read site.timeoutClass s.linkAnswer] <+: t.hist := by
    cases hstep.symm.trans h
    exact (KeepsRead.fail _ _ _ ((s.afterRead site.timeoutClass).latchUnfilled n)).hist
  cases ha : s.linkAnswer with
  | none => exact ha ▸ unfilled (step_of_empty_read hsite ha)
  | some raw =>
    cases hsplit : splitFrame raw with
    | none => exact ha ▸ unfilled (step_of_unfilled_read hsite ha hsplit)
    | some frame => exact ha ▸ (step_of_filled_read hsite ha hsplit hstep).hist

theorem ReadSite.timeoutClass_eq_ack_iff (site : ReadSite) : site.timeoutClass = .ack ↔ ∃ stage, site = .ack stage := by
  cases site <;> simp [ReadSite.timeoutClass]

/-- Settles O18: an unfilled read ends in the failure of O19, and a filled one keeps what was latched. -/
theorem readsWriteRxf : Obligations.ReadsWriteRxf := by
  intro s t site hsite hstep
  obtain ⟨hempty, hshort⟩ := unfilledReadsFail s site hsite
  refine ⟨fun ha => ?_, fun raw ha hlen => ?_, fun raw tag declLen ha hlen htag hdecl => ?_, ?_⟩
  · cases hstep.symm.trans (hempty ha); rfl
  · cases hstep.symm.trans (hshort raw ha hlen); rfl
  · obtain ⟨f, hsplit, hdeclLen, hpayload, hrawLen⟩ := splitFrame_by_position hlen htag hdecl
    rw [(step_of_filled_read hsite ha hsplit hstep).rxf, State.latchFrame_rxf, hdeclLen, hpayload, hrawLen]
  · obtain ⟨events, hhist⟩ := step_records_read hsite hstep
    exact ⟨site.timeoutClass, events, by simp [← hhist], site.timeoutClass_eq_ack_iff⟩

end Sys2Proof.Machine
end

section
/-! The Segmenter's phases without a read (41_segmenter.md R171, R172, R174, R178): each is one step, whose successor is
written out from what CHECK, the two commands of a role and the advance of the Sequencer do. -/

namespace Sys2Proof.Machine

/-! ### The commands of a role -/

/-- The clear command of a role is sent with the role's tag, whatever the state (41_segmenter.md R175). -/
theorem exec_clearCommand (role : Role) (s : State) :
    exec (clearCommand role) s = .next ((s.emit (.send role.tag 0x01 [])).setPhase .ackClear) := by
  cases role <;> rfl

/-- The append command of a role that the encoder accepts is sent with the role's tag and counted (41_segmenter.md R174,
R176). -/
theorem exec_appendCommand (role : Role) {chunk : Bytes} (h : chunk.length ≤ maxCmdPayload) (s : State) :
    exec (appendCommand role chunk) s = .next ((s.emit (.send role.tag 0x00 chunk)).appended chunk.length) := by
  have sent (stage : Stage) : s.sendAppend role.tag chunk stage =
      (s.emit (.send role.tag 0x00 chunk)).appended chunk.length := sendCommand_of_le h ..
  cases role with
  | input => exact congrArg _ (sent .setInput)
  | key => exact congrArg _ (sent .setKey)
  | ad => exact congrArg _ (sent .setAd)

/-- The chunk of an append, cut out from the front of what is left of the buffer (41_segmenter.md R174). -/
theorem chunkAt_eq_take_drop (buf : Bytes) (off : Nat) :
    chunkAt buf off = (buf.drop off).take (min chunkSize (buf.length - off)) := by
  rw [chunkAt, slice_eq_take_drop, Nat.add_sub_cancel_left]

/-! ### CHECK -/

theorem State.checkStep_of_lt {s : State} (h : s.seg.role.maxLen s.cfg < s.uploadBuffer.length) :
    s.checkStep = s.fail .configLength s.seg.role.stage 0 := if_pos h

theorem State.checkStep_of_le {s : State} (h : s.uploadBuffer.length ≤ s.seg.role.maxLen s.cfg) :
    s.checkStep = s.setPhase .sendClear := if_neg h.not_gt

/-! ### The macro-step after an upload -/

/-- Inside a program, the macro-step after the current one is the next of its list (43_sequencer.md R232). -/
theorem bumpPc_macroStep {s : State} (h : s.PcOk) :
    s.bumpPc.macroStep? = (program s.seq.op)[s.seq.pc.toNat + 1]? := by
  rw [State.macroStep?, bumpPc_toNat s h, State.bumpPc_seq]

/-- A command stands between the uploads and the drain of its answer (43_sequencer.md R231). -/
theorem program_after_upload_ne_drain (op : HostOp) (pc : BitVec 4) (role : Role)
    (h : (program op)[pc.toNat]? = some (.upload role)) : (program op)[pc.toNat + 1]? ≠ some .drain := by
  revert pc
  cases op <;> cases role <;> decide

/-- Where the next macro-step is an UPLOAD, advancing restarts the Segmenter for its role (41_segmenter.md R170). -/
theorem State.advance_eq_upload {s : State} {role : Role} (h : s.bumpPc.macroStep? = some (.upload role)) :
    s.advance = { s.bumpPc with seg := { phase := .check, role := role, off := 0 } } := by
  rw [State.advance, h, enterMacroStep]

/-! ### The phases -/

section Phase
variable {s : State} {role : Role} (hrun : s.seq.state = .run) (hstep : s.macroStep? = some (.upload role))
include hrun hstep

/-- In an UPLOAD the phase of the Segmenter says what the step does (43_sequencer.md R235). -/
theorem activity_of_upload : s.activity = s.uploadActivity := by
  simp only [State.activity, hrun, State.runActivity, hstep]

theorem step_of_check (hphase : s.seg.phase = .check) : step s = .next s.checkStep := by
  simp only [step, activity_of_upload hrun hstep, State.uploadActivity, hphase]

theorem step_of_sendClear (hphase : s.seg.phase = .sendClear) :
    step s = .next ((s.emit (.send s.seg.role.tag 0x01 [])).setPhase .ackClear) := by
  simp only [step, activity_of_upload hrun hstep, State.uploadActivity, hphase, exec_clearCommand]

theorem step_of_sendAppend (hphase : s.seg.phase = .sendAppend) :
    step s = .next ((s.emit (.send s.seg.role.tag 0x00 s.nextChunk)).appended s.nextChunk.length) := by
  simp only [step, activity_of_upload hrun hstep, State.uploadActivity, hphase,
    exec_appendCommand _ (chunkAt_length_le s.uploadBuffer s.seg.off), State.nextChunk]

theorem step_of_uploadDone (hphase : s.seg.phase = .done) : step s = .next s.advance := by
  simp only [step, activity_of_upload hrun hstep, State.uploadActivity, hphase]

end Phase

/-! ### The statements -/

/-- Settles O29: the table of roles gives the buffer, the maximum and the stage that CHECK uses. -/
theorem checkPhase : Obligations.CheckPhase := by
  intro s role hrun hstep hphase buf max stage htable
  obtain ⟨rfl, rfl, rfl⟩ :
      buf = s.uploadBuffer ∧ max = s.seg.role.maxLen s.cfg ∧ stage = s.seg.role.stage := by
    obtain ⟨hrole, rfl, rfl, rfl⟩ | ⟨hrole, rfl, rfl, rfl⟩ | ⟨hrole, rfl, rfl, rfl⟩ := htable <;>
      simp only [State.uploadBuffer, hrole, Session.buffer, Role.maxLen, Role.stage, and_self]
  rw [step_of_check hrun hstep hphase]
  exact ⟨fun h => congrArg _ (State.checkStep_of_lt h), fun h => congrArg _ (State.checkStep_of_le h)⟩

/-- Settles O30: the tag in the table of roles is that of the role's clear command. -/
theorem sendClearPhase : Obligations.SendClearPhase := by
  intro s role tag hrun hstep hphase htable
  obtain rfl : tag = s.seg.role.tag := by
    obtain ⟨hrole, rfl⟩ | ⟨hrole, rfl⟩ | ⟨hrole, rfl⟩ := htable <;> rw [hrole, Role.tag]
  exact step_of_sendClear hrun hstep hphase

/-- Settles O31: the chunk sent is the next `n` bytes of the role's buffer, and so has `n` bytes. -/
theorem sendAppendPhase : Obligations.SendAppendPhase := by
  intro s role tag buf n hrun hstep hphase htable hn
  obtain ⟨rfl, rfl⟩ : tag = s.seg.role.tag ∧ buf = s.uploadBuffer := by
    obtain ⟨hrole, rfl, rfl⟩ | ⟨hrole, rfl, rfl⟩ | ⟨hrole, rfl, rfl⟩ := htable <;>
      simp only [State.uploadBuffer, hrole, Session.buffer, Role.tag, and_self]
  have hchunk : s.nextChunk = (s.uploadBuffer.drop s.seg.off).take n := by
    rw [hn]; exact chunkAt_eq_take_drop ..
  have hlen : s.nextChunk.length = n := by
    rw [hn]; exact chunkAt_length ..
  rw [step_of_sendAppend hrun hstep hphase, hlen, hchunk]
  rfl

/-- Settles O32: what follows an upload is another upload, which is entered, or a macro-step without an entry action. -/
theorem uploadDonePhase : Obligations.UploadDonePhase := by
  intro s role hrun hstep hphase
  have hnext := bumpPc_macroStep (pcOk_of_macroStep hstep)
  have hdrain := program_after_upload_ne_drain s.seq.op s.seq.pc role hstep
  rw [step_of_uploadDone hrun hstep hphase, ← hnext]
  rw [← hnext] at hdrain
  exact ⟨fun next h => congrArg _ (State.advance_eq_upload h), fun h => congrArg _ (s.advance_eq_bumpPc h hdrain)⟩

end Sys2Proof.Machine
end

section
/-! Inbound frames in a drain and in a status response (42_accumulator.md R202 to R206, 43_sequencer.md R251): what `exec`
does with each class there, one equation per branch of what takes the frame, and the tags that neither site accepts. -/

namespace Sys2Proof.Machine

/-! ### What takes the frame -/

section Site
variable {s : State}

theorem exec_rspR_of_drain (h : s.readSite? = some .drain) (f : Frame) :
    exec (.rspR f) s = .next ((s.latchFrame tagR f).acceptChunk f) := by
  simp only [exec, execRspR, h]

theorem exec_rspT_of_drain (h : s.readSite? = some .drain) (f : Frame) :
    exec (.rspT f) s = .next ((s.latchFrame tagT f).acceptTerminator f) := by
  simp only [exec, execRspT, h]

/-- The status response accepts no terminator (43_sequencer.md R251). -/
theorem exec_rspT_of_statusResponse (h : s.readSite? = some .statusResponse) (f : Frame) :
    exec (.rspT f) s = .next ((s.latchFrame tagT f).rejectTag .statusResponse tagT) := by
  simp only [exec, execRspT, h]

/-- Where an error frame is no acknowledgment, both sites treat it alike (42_accumulator.md R205, 43_sequencer.md R251). -/
theorem exec_rspE_of_not_ack {site : ReadSite} (h : s.readSite? = some site) (hsite : site = .drain ∨ site = .statusResponse)
    (f : Frame) : exec (.rspE f) s = .next ((s.latchFrame tagE f).errorFrame site.stage f) := by
  obtain rfl | rfl := hsite <;> simp only [exec, execRspE, h, ReadSite.stage]

theorem macroStep_of_drain (h : s.readSite? = some .drain) : s.macroStep? = some .drain := by
  obtain ⟨-, ⟨_, -, -, hack⟩ | ⟨_, -, hack⟩ | ⟨hdrain, -, -⟩ | ⟨-, hstatus⟩⟩ := readSite_cases h
  · cases hack
  · cases hack
  · exact hdrain
  · cases hstatus

end Site

/-- An empty payload has no first operand (30_encoding.md R105). -/
theorem firstOperand_of_empty {f : Frame} (h : f.payload = []) : firstOperand f = none := by
  rw [firstOperand, h]; rfl

/-! ### Data frames -/

theorem State.acceptChunk_of_fits {s : State} {f : Frame}
    (h : ∀ m, s.par.maxResultLen = some m → s.acc.result.length + f.payload.length ≤ m) :
    s.acceptChunk f = { s with
      acc := { state := .accumulating, result := s.acc.result ++ f.payload, nchunk := s.acc.nchunk + 1 } } :=
  if_neg (Bool.eq_false_iff.1 ((resultOverflows_false_iff ..).2 h))

theorem State.acceptChunk_of_overflow {s : State} {f : Frame} {m : Nat} (hm : s.par.maxResultLen = some m)
    (h : m < s.acc.result.length + f.payload.length) :
    s.acceptChunk f = s.fail .resultOverflow .fetchResult tagR :=
  if_pos ((resultOverflows_iff ..).2 ⟨m, hm, h⟩)

/-- Settles O13: the overflow check decides the branch, and a drain's read is in a DRAIN macro-step, so its failure marks the
Accumulator and keeps the result. -/
theorem dataFramesInADrain : Obligations.DataFramesInADrain := by
  intro s f hsite
  have hexec := exec_rspR_of_drain hsite f
  refine ⟨fun hfits => ?_, fun m hm hover => ⟨?_, ?_⟩⟩
  · rw [hexec, State.acceptChunk_of_fits (s := s.latchFrame tagR f) hfits]
    rfl
  · rw [hexec, State.acceptChunk_of_overflow (s := s.latchFrame tagR f) hm hover]
    rfl
  · rw [State.fail_acc, State.latchFrame_macroStep, if_pos (macroStep_of_drain hsite), State.latchFrame_acc]

/-! ### Terminators -/

/-- When the terminator check passes, under both polarities (42_accumulator.md R204). -/
theorem terminatorFails_false_iff (failOn : TermFailOn) (n : Nat) (count : Byte) :
    terminatorFails failOn n count = false ↔
      (failOn = .mismatch ∧ n % 256 = count.toNat) ∨ (failOn = .equal ∧ n % 256 ≠ count.toNat) := by
  rw [← Bool.not_eq_true, terminatorFails_iff]
  cases failOn <;> simp

section Terminator
variable {s : State} {f : Frame} {count : Byte}

theorem State.acceptTerminator_of_empty (h : firstOperand f = none) :
    s.acceptTerminator f = s.fail .malformedFrame .fetchResult tagT := by
  simp only [State.acceptTerminator, h]

theorem State.acceptTerminator_of_count (h : firstOperand f = some count) :
    s.acceptTerminator f =
      if terminatorFails s.par.termFailOn s.acc.nchunk count then s.fail .resultLength .fetchResult count
      else { s with acc := { s.acc with state := .done } } := by
  simp only [State.acceptTerminator, h]

end Terminator

/-- Settles O14: the count and its check decide the branch. -/
theorem terminatorsInADrain : Obligations.TerminatorsInADrain := by
  intro s f hsite
  have hexec := exec_rspT_of_drain hsite f
  refine ⟨fun count hcount hpasses => ?_, fun count hcount hfails => ?_, fun hempty => ?_⟩
  · have hcheck : ¬ terminatorFails s.par.termFailOn s.acc.nchunk count = true :=
      Bool.eq_false_iff.1 ((terminatorFails_false_iff ..).2 hpasses)
    rw [hexec, State.acceptTerminator_of_count hcount]
    exact congrArg _ (if_neg hcheck)
  · have hcheck : terminatorFails s.par.termFailOn s.acc.nchunk count = true := (terminatorFails_iff ..).2 hfails
    rw [hexec, State.acceptTerminator_of_count hcount]
    exact congrArg _ (if_pos hcheck)
  · rw [hexec, State.acceptTerminator_of_empty (firstOperand_of_empty hempty)]
    rfl

/-! ### Error frames -/

section ErrorFrame
variable {s : State} {f : Frame} (stage : Stage)

theorem State.errorFrame_of_empty (h : firstOperand f = none) :
    s.errorFrame stage f = s.fail .malformedFrame stage tagE := by
  simp only [State.errorFrame, h]

theorem State.errorFrame_of_zero (h : firstOperand f = some 0) : s.errorFrame stage f = s.fail .errorFrameZero stage 0 := by
  simp only [State.errorFrame, h, if_true]

theorem State.errorFrame_of_ne_zero {status : Byte} (h : firstOperand f = some status) (hne : status ≠ 0) :
    s.errorFrame stage f = s.fail .protocol stage status := by
  simp only [State.errorFrame, h, if_neg hne]

end ErrorFrame

/-- Settles O15: the three branches of an error frame that is no acknowledgment, each of them a failure. -/
theorem errorFramesFail : Obligations.ErrorFramesFail := by
  intro s f site hread hsite
  rw [exec_rspE_of_not_ack hread hsite]
  exact ⟨fun hempty => congrArg _ (State.errorFrame_of_empty _ (firstOperand_of_empty hempty)),
    fun hzero => congrArg _ (State.errorFrame_of_zero _ hzero),
    fun _ hstatus hne => congrArg _ (State.errorFrame_of_ne_zero _ hstatus hne)⟩

/-! ### Other tags -/

/-- A filled frame outside the three inbound classes (30_encoding.md R106). -/
theorem decodeRsp_of_otherTag {raw : Bytes} {tag : Byte} {f : Frame} (hsplit : splitFrame raw = some (tag, f))
    (hR : tag ≠ tagR) (hE : tag ≠ tagE) (hT : tag ≠ tagT) : decodeRsp raw = .error (.otherTag tag f) := by
  simp only [decodeRsp, hsplit, if_neg hR, if_neg hE, if_neg hT]

theorem decodeRsp_of_tagT {raw : Bytes} {f : Frame} (hsplit : splitFrame raw = some (tagT, f)) :
    decodeRsp raw = .ok (.rspT f) := by
  rw [decodeRsp, hsplit]; rfl

section Reject
variable {s : State} {site : ReadSite} {raw : Bytes} {tag : Byte} {f : Frame} (ha : s.linkAnswer = some raw)
include ha

/-- No read site accepts a tag outside the three inbound classes (30_encoding.md R106). -/
theorem step_of_otherTag (hsite : s.readSite? = some site) (hsplit : splitFrame raw = some (tag, f)) (hR : tag ≠ tagR)
    (hE : tag ≠ tagE) (hT : tag ≠ tagT) :
    step s = .next (((s.afterRead site.timeoutClass).latchFrame tag f).rejectTag site tag) := by
  simp only [step, activity_of_readSite hsite, State.readActivity, ha, decodeRsp_of_otherTag hsplit hR hE hT]

theorem step_of_terminator_at_statusResponse (hsite : s.readSite? = some .statusResponse)
    (hsplit : splitFrame raw = some (tagT, f)) :
    step s = .next (((s.afterRead .cmd).latchFrame tagT f).rejectTag .statusResponse tagT) := by
  have hexec := exec_rspT_of_statusResponse (s := s.afterRead .cmd) hsite f
  simpa only [step, activity_of_readSite hsite, State.readActivity, ha, decodeRsp_of_tagT hsplit,
    ReadSite.timeoutClass] using hexec

end Reject

/-- Settles O20: a drain rejects the tags outside the three inbound classes, a status response also the terminator's. -/
theorem unexpectedTagsFail : Obligations.UnexpectedTagsFail := by
  intro s raw tag f ha hsplit
  refine ⟨fun hsite hR hE hT => step_of_otherTag ha hsite hsplit hR hE hT, fun hsite hR hE => ?_⟩
  by_cases hT : tag = tagT
  · subst hT
    exact step_of_terminator_at_statusResponse ha hsite hsplit
  · exact step_of_otherTag ha hsite hsplit hR hE hT

end Sys2Proof.Machine
end

section
/-! The Sequencer (43_sequencer.md): request acceptance, and the macro-steps that neither upload nor read. Each of these
has one equation for its step, and what it advances into is read off the programs of R231. -/

namespace Sys2Proof.Machine

/-! ### Request acceptance -/

theorem State.present_of_idle {s : State} (h : s.seq.state = .idle) (op : HostOp) (a : HostArgs) :
    s.present op a = s.accept op a := by
  simp only [State.present, h]

theorem State.present_of_run {s : State} (h : s.seq.state = .run) (op : HostOp) (a : HostArgs) :
    s.present op a = s.hold op.code a := by
  simp only [State.present, h]

/-- A host operation presents its request, whatever the state (43_sequencer.md R260 to R263). -/
theorem exec_hostOperation {op : HostOp} {i : Instr} {a : HostArgs}
    (h : (op, i) ∈ [(HostOp.encrypt, Instr.hostEncrypt a), (.decrypt, .hostDecrypt a), (.hash, .hostHash a),
      (.status, .hostStatus a)]) (s : State) : exec i s = .next (s.present op a) := by
  simp only [List.mem_cons, Prod.mk.injEq, List.not_mem_nil, or_false] at h
  obtain ⟨rfl, rfl⟩ | ⟨rfl, rfl⟩ | ⟨rfl, rfl⟩ | ⟨rfl, rfl⟩ := h <;> rfl

/-- Settles O23: a presented request is accepted in `IDLE`, and held by the agents' record in `RUN`. -/
theorem hostOperationsAccepted : Obligations.HostOperationsAccepted := by
  intro s a op i hop
  rw [exec_hostOperation hop s]
  exact ⟨fun hidle => congrArg _ (State.present_of_idle hidle op a),
    fun hrun => ⟨_, congrArg _ (State.present_of_run hrun op a)⟩⟩

/-! ### What a macro-step does -/

section MacroStep
variable {s : State} (hrun : s.seq.state = .run)
include hrun

theorem step_of_goes {t : State} (h : s.runActivity = .goes t) : step s = .next t := by
  simp only [step, State.activity, hrun, h]

theorem step_of_runs {i : Instr} (h : s.runActivity = .runs i s) : step s = exec i s := by
  simp only [step, State.activity, hrun, h]

theorem step_of_flush (hm : s.macroStep? = some .flush) : step s = .next (s.emit .flush).advance :=
  step_of_goes hrun (by simp only [State.runActivity, hm, State.flushStep])

theorem step_of_arm (hm : s.macroStep? = some .arm) : step s = .next (s.emit .arm).advance :=
  step_of_goes hrun (by simp only [State.runActivity, hm, State.armStep])

theorem step_of_nonce (hm : s.macroStep? = some .nonce) : step s = .next s.nonceStep :=
  step_of_goes hrun (by simp only [State.runActivity, hm])

theorem step_of_capture (hm : s.macroStep? = some .capture) : step s = .next s.captureStep :=
  step_of_goes hrun (by simp only [State.runActivity, hm])

theorem step_of_trace (hm : s.macroStep? = some .trace) : step s = .next s.afterTrace.advance :=
  step_of_goes hrun (by simp only [State.runActivity, hm, State.traceStep])

theorem step_of_complete (hm : s.macroStep? = some .complete) : step s = .next s.completeStep :=
  step_of_goes hrun (by simp only [State.runActivity, hm])

theorem step_of_performEnc (hm : s.macroStep? = some .performEnc) :
    step s = .next (s.sendCommand 0x70 0x01 s.ses.nonce .perform State.advance) :=
  step_of_runs hrun (i := .perfEnc s.ses.nonce) (by simp only [State.runActivity, hm])

theorem step_of_performDec (hm : s.macroStep? = some .performDec) :
    step s = .next (s.sendCommand 0x70 0x00 s.ses.nonce .perform State.advance) :=
  step_of_runs hrun (i := .perfDec s.ses.nonce) (by simp only [State.runActivity, hm])

theorem step_of_performHash (hm : s.macroStep? = some .performHash) :
    step s = .next (s.sendCommand 0x68 0x00 [] .perform State.advance) :=
  step_of_runs hrun (i := .hash) (by simp only [State.runActivity, hm])

theorem step_of_sendStatus (hm : s.macroStep? = some .sendStatus) :
    step s = .next (s.sendCommand 0x73 0x00 [] .statusQuery State.advance) :=
  step_of_runs hrun (i := .status) (by simp only [State.runActivity, hm])

end MacroStep

/-! ### What a macro-step advances into -/

/-- FLUSH opens every program; the input upload follows in all but that of STATUS (43_sequencer.md R231). -/
theorem macroStep_after_flush {s : State} (h : s.macroStep? = some .flush) :
    s.bumpPc.macroStep? = some (if s.seq.op = .status then .sendStatus else .upload .input) := by
  have after : ∀ (op : HostOp) (pc : BitVec 4), (program op)[pc.toNat]? = some .flush →
      (program op)[(pc + 1).toNat]? = some (if op = .status then .sendStatus else .upload .input) := by
    intro op; cases op <;> decide
  exact after s.seq.op s.seq.pc h

/-- NONCE stands before ARM, or before the command where the program does not arm (43_sequencer.md R231). -/
theorem macroStep_after_nonce {s : State} (h : s.macroStep? = some .nonce) :
    s.bumpPc.macroStep? = some .arm ∨ s.bumpPc.macroStep? = some .performDec := by
  have after : ∀ (op : HostOp) (pc : BitVec 4), (program op)[pc.toNat]? = some .nonce →
      (program op)[(pc + 1).toNat]? = some .arm ∨ (program op)[(pc + 1).toNat]? = some .performDec := by
    intro op; cases op <;> decide
  exact after s.seq.op s.seq.pc h

/-- NONCE, ARM, CAPTURE, TRACE and SEND_STATUS advance into a macro-step without an entry action, so only `SEQ.PC` moves
(43_sequencer.md R232). -/
theorem State.advance_eq_bumpPc_of_macroStep {s : State} {m : MacroStep} (h : s.macroStep? = some m)
    (hm : m ∈ [.nonce, .arm, .capture, .trace, .sendStatus]) : s.advance = s.bumpPc := by
  obtain ⟨hupload, hdrain⟩ :
      (∀ role, s.bumpPc.macroStep? ≠ some (.upload role)) ∧ s.bumpPc.macroStep? ≠ some .drain := by
    obtain rfl | hmid | rfl : m = .nonce ∨ (m = .arm ∨ m = .capture ∨ m = .trace) ∨ m = .sendStatus := by
      simpa [or_assoc] using hm
    · obtain hnext | hnext := macroStep_after_nonce h <;> simp [hnext]
    · exact macroStep_after_ack s (by obtain rfl | rfl | rfl := hmid <;> simp [h])
    · simp [(macroStep_after_send s).2 h]
  exact s.advance_eq_bumpPc hupload hdrain

/-! ### FLUSH and ARM -/

/-- Settles O33: ARM and the FLUSH of STATUS only move `SEQ.PC`, every other FLUSH enters the input upload. -/
theorem flushAndArmSteps : Obligations.FlushAndArmSteps := by
  intro s hrun
  refine ⟨fun hm hop => ?_, fun hm hop => ?_, fun hm => ?_⟩
  · have hnext : (s.emit .flush).bumpPc.macroStep? = some (.upload .input) :=
      (macroStep_after_flush hm).trans (by rw [if_neg hop])
    rw [step_of_flush hrun hm, State.advance_eq_upload hnext]
    rfl
  · have hnext : (s.emit .flush).bumpPc.macroStep? = some .sendStatus :=
      (macroStep_after_flush hm).trans (by rw [if_pos hop])
    rw [step_of_flush hrun hm, State.advance_eq_bumpPc _ (by simp [hnext]) (by simp [hnext])]
    rfl
  · rw [step_of_arm hrun hm, State.advance_eq_bumpPc_of_macroStep (s := s.emit .arm) hm (by decide)]
    rfl

/-! ### NONCE -/

theorem State.nonceStep_of_empty {s : State} (h : s.ses.nonce = []) :
    s.nonceStep = (s.drawNonce s.cfg.nonceLen).advance := by
  rw [State.nonceStep, if_pos (List.length_eq_zero_iff.2 h)]

theorem State.nonceStep_of_supplied {s : State} (h : s.ses.nonce ≠ []) : s.nonceStep = s.advance := by
  rw [State.nonceStep, if_neg (mt List.length_eq_zero_iff.1 h)]

/-- Settles O34: the branch of NONCE is whether the nonce is empty, and both branches then only move `SEQ.PC`. -/
theorem nonceStep : Obligations.NonceStep := by
  intro s hrun hm
  rw [step_of_nonce hrun hm]
  refine ⟨fun hsupplied => ?_, fun hempty => ⟨_, rfl, s.entropyAnswer_length _, ?_⟩⟩
  · rw [State.nonceStep_of_supplied hsupplied, State.advance_eq_bumpPc_of_macroStep hm (by decide)]
    rfl
  · rw [State.nonceStep_of_empty hempty,
      State.advance_eq_bumpPc_of_macroStep (s := s.drawNonce s.cfg.nonceLen) hm (by decide)]
    rfl

/-! ### CAPTURE and TRACE -/

theorem State.captureStep_of_timeout {s : State} (h : s.captureAnswer = true) :
    s.captureStep = s.afterCapture.fail .instrumentTimeout .capture 0 := if_pos h

theorem State.captureStep_of_captured {s : State} (h : s.captureAnswer = false) :
    s.captureStep = s.afterCapture.advance := if_neg (Bool.eq_false_iff.1 h)

/-- Settles O35: the instrument's answer decides the branch of CAPTURE; what goes on only moves `SEQ.PC`. -/
theorem captureAndTraceSteps : Obligations.CaptureAndTraceSteps := by
  intro s hrun
  refine ⟨fun hm htimeout => ?_, fun hm hcaptured => ?_, fun hm => ?_⟩
  · rw [step_of_capture hrun hm, State.captureStep_of_timeout htimeout, State.afterCapture, htimeout]
  · rw [step_of_capture hrun hm, State.captureStep_of_captured hcaptured,
      State.advance_eq_bumpPc_of_macroStep (s := s.afterCapture) hm (by decide), State.afterCapture, hcaptured]
    rfl
  · rw [step_of_trace hrun hm, State.advance_eq_bumpPc_of_macroStep (s := s.afterTrace) hm (by decide)]
    rfl

/-! ### COMPLETE -/

theorem State.completeStep_of_ne_status {s : State} (h : s.seq.op ≠ .status) :
    s.completeStep = { s with
      hist := s.hist ++ [.respond s.completeResponse], seq := { s.seq with state := .idle } } := by
  rw [State.completeStep, if_neg h]

theorem State.completeStep_of_status {s : State} (h : s.seq.op = .status) :
    s.completeStep = { s with
      stat := { s.stat with valid := true }, hist := s.hist ++ [.respond s.completeResponse],
      seq := { s.seq with state := .idle } } := by
  rw [State.completeStep, if_pos h]

/-- Settles O36: the operation selects the row of R246, and only STATUS also writes `STAT`. -/
theorem completeStep : Obligations.CompleteStep := by
  intro s hrun hm
  rw [step_of_complete hrun hm]
  refine ⟨?_, fun hop => ?_, fun hop => ?_⟩
  · rintro (hop | hop) <;>
      rw [State.completeStep_of_ne_status (by rw [hop]; decide), State.completeResponse, hop]
  · rw [State.completeStep_of_ne_status (by rw [hop]; decide), State.completeResponse, hop]
  · rw [State.completeStep_of_status hop, State.completeResponse, hop]

/-! ### The macro-steps that send -/

section Perform
variable {s : State} (hnext : s.bumpPc.macroStep? = some .drain) (cmd scmd : Byte) {payload : Bytes}
include hnext

/-- A command before a DRAIN is sent, and the advance enters the drain (42_accumulator.md R200). -/
theorem sendCommand_into_drain (h : payload.length ≤ 255) (stage : Stage) :
    s.sendCommand cmd scmd payload stage State.advance = { s with
      hist := s.hist ++ [.send cmd scmd payload], seq := { s.seq with pc := s.seq.pc + 1 },
      acc := { state := .awaiting, result := [], nchunk := 0 } } := by
  rw [sendCommand_of_le h, State.advance_eq_drain (s := s.emit (.send cmd scmd payload)) hnext]
  rfl

/-- PERFORM with a payload of any length: the encoder's bound decides between the send and the failure (43_sequencer.md
R242). -/
theorem perform_outcome :
    (.next (s.sendCommand cmd scmd payload .perform State.advance) : Host.Outcome State Fault Refusal) =
      if payload.length ≤ 255 then .next { s with
        hist := s.hist ++ [.send cmd scmd payload], seq := { s.seq with pc := s.seq.pc + 1 },
        acc := { state := .awaiting, result := [], nchunk := 0 } }
      else .next (s.fail .payloadTooLong .perform 0x00) := by
  split
  case isTrue h => rw [sendCommand_into_drain hnext cmd scmd h]
  case isFalse h => rw [sendCommand_of_gt (Nat.lt_of_not_le h)]

end Perform

/-- Settles O60: the three PERFORM macro-steps stand before a DRAIN, SEND_STATUS does not, and an empty payload is
within the encoder's bound. -/
theorem performAndStatusSteps : Obligations.PerformAndStatusSteps := by
  intro s hrun
  obtain ⟨hdrain, -⟩ := macroStep_after_send s
  refine ⟨fun hm => ?_, fun hm => ?_, fun hm => ?_, fun hm => ?_⟩
  · rw [step_of_performEnc hrun hm]
    exact perform_outcome (hdrain (.inl hm)) 0x70 0x01
  · rw [step_of_performDec hrun hm]
    exact perform_outcome (hdrain (.inr (.inl hm))) 0x70 0x00
  · rw [step_of_performHash hrun hm, sendCommand_into_drain (hdrain (.inr (.inr hm))) 0x68 0x00 (Nat.zero_le _)]
  · rw [step_of_sendStatus hrun hm, sendCommand_of_le (Nat.zero_le _),
      State.advance_eq_bumpPc_of_macroStep (s := s.emit (.send 0x73 0x00 [])) hm (by decide)]
    rfl

end Sys2Proof.Machine
end

section
/-! The failure procedure (60_exceptions.md R280): the record it leaves in `ERR`, and the state it answers as a whole. -/

namespace Sys2Proof.Machine

/-- `ERR.KNOWN` of a failure: only a `PROTOCOL` status with a name is known (60_exceptions.md R273). -/
theorem failRecord_known_iff (par : Params) (cls : ErrClass) (stage : Stage) (code : Byte) :
    (failRecord par cls stage code).known = true ↔ cls = .protocol ∧ (statusName par code).isSome = true :=
  errKnown_iff par cls code

/-- Settles O26: `failRecord` is the record. Its known flag is the one field that is computed; the whole-state equation
is the definition of `State.fail` with `failResponse` written out. -/
theorem failureProcedure : Obligations.FailureProcedure := by
  intro s cls stage code
  refine ⟨failRecord s.par cls stage code, rfl, rfl, rfl, rfl, ?known, ?frame⟩
  case known => exact failRecord_known_iff s.par cls stage code
  case frame => rfl

end Sys2Proof.Machine
end

section
/-! The reset state (70_reset_and_hazards.md R310), register by register. -/

namespace Sys2Proof.Machine

/-- Settles O27: `State.reset` itself writes out `CFG` and `BIND`; each of the other registers has its own reset value,
written out in the definition that cites its rule (10_state.md R32 to R39). -/
theorem resetState : Obligations.ResetState := by
  refine ⟨?cfg, ?bind, ?seq, ?ses, ?seg, ?acc, ?rxf, ?stat, ?err, ?out⟩
  case cfg | bind => rfl
  case seq => exact Sequencer.reset.eq_def
  case ses => exact Session.reset.eq_def
  case seg => exact Segmenter.reset.eq_def
  case acc => exact Accumulator.reset.eq_def
  case rxf => exact RxFrame.reset.eq_def
  case stat => exact TargetStatus.reset.eq_def
  case err => exact ErrorReg.reset.eq_def
  case out => exact OutputReg.reset.eq_def

end Sys2Proof.Machine
end

section
/-! The encodings (30_encoding.md): DECODE undoes ENCODE on every well-formed instruction, and drops no byte of what it
accepts. -/

namespace Sys2Proof

/-! ### The command map -/

/-- DECODE of a logical frame within the encoder's bound is the command map of 30_encoding.md R103. -/
theorem decode_logicalFrame {cmd scmd : Byte} {payload : Bytes} {i : Instr} (hlen : payload.length ≤ 255)
    (hmap : selectCommand cmd scmd payload = .ok i) : decode (.cmd (logicalFrame cmd scmd payload)) = .ok i := by
  simp only [decode, decodeCmd_logicalFrame cmd scmd payload hlen, hmap]

/-- The command map reads its own rows only: what it selects is encoded with the pair and the payload that select it. -/
theorem encode_of_selectCommand {cmd scmd : Byte} {payload : Bytes} {i : Instr}
    (h : selectCommand cmd scmd payload = .ok i) : encode i = .cmd (logicalFrame cmd scmd payload) := by
  have bare {j : Instr} {frame : Bytes} (hj : withoutPayload j payload = .ok i)
      (henc : payload = [] → encode j = .cmd frame) : encode i = .cmd frame := by
    obtain ⟨rfl, hempty⟩ := withoutPayload_ok hj
    exact henc hempty
  have loaded {j : Instr} {frame : Bytes} (hj : (.ok j : Except CmdError Instr) = .ok i)
      (henc : encode j = .cmd frame) : encode i = .cmd frame := by
    cases hj; exact henc
  unfold selectCommand at h
  obtain ⟨⟨rfl, rfl⟩, h⟩ | ⟨-, h⟩ := ite_eq_iff.1 h
  · exact bare h (by rintro rfl; rfl)
  obtain ⟨⟨rfl, rfl⟩, h⟩ | ⟨-, h⟩ := ite_eq_iff.1 h
  · exact loaded h rfl
  obtain ⟨⟨rfl, rfl⟩, h⟩ | ⟨-, h⟩ := ite_eq_iff.1 h
  · exact bare h (by rintro rfl; rfl)
  obtain ⟨⟨rfl, rfl⟩, h⟩ | ⟨-, h⟩ := ite_eq_iff.1 h
  · exact loaded h rfl
  obtain ⟨⟨rfl, rfl⟩, h⟩ | ⟨-, h⟩ := ite_eq_iff.1 h
  · exact bare h (by rintro rfl; rfl)
  obtain ⟨⟨rfl, rfl⟩, h⟩ | ⟨-, h⟩ := ite_eq_iff.1 h
  · exact loaded h rfl
  obtain ⟨⟨rfl, rfl⟩, h⟩ | ⟨-, h⟩ := ite_eq_iff.1 h
  · exact loaded h rfl
  obtain ⟨⟨rfl, rfl⟩, h⟩ | ⟨-, h⟩ := ite_eq_iff.1 h
  · exact loaded h rfl
  obtain ⟨⟨rfl, rfl⟩, h⟩ | ⟨-, h⟩ := ite_eq_iff.1 h
  · exact bare h (by rintro rfl; rfl)
  obtain ⟨⟨rfl, rfl⟩, h⟩ | ⟨-, h⟩ := ite_eq_iff.1 h
  · exact bare h (by rintro rfl; rfl)
  cases h

/-- A byte sequence that reads as a command is the logical frame of its first two bytes and its payload (30_encoding.md
R100): the length byte is the payload's length, so it is the one ENCODE writes. -/
theorem encode_of_decodeCmd {frame : Bytes} {i : Instr} (h : decodeCmd frame = .ok i) : encode i = .cmd frame := by
  match frame with
  | cmd :: scmd :: len :: payload =>
    rw [decodeCmd] at h
    split_ifs at h with hlen
    have hbyte : BitVec.ofNat 8 payload.length = len := by rw [hlen, BitVec.ofNat_toNat, BitVec.setWidth_eq]
    rw [encode_of_selectCommand h, logicalFrame, hbyte]
  | [] | [_] | [_, _] => cases h

/-! ### Raw frames -/

/-- The positional split takes a well-formed raw frame apart: the payload ends where the trailer begins, also in a frame
of four bytes, whose trailer is one byte (30_encoding.md R104). -/
theorem splitFrame_rawFrame {f : Frame} (h : frameOk f = true) (tag : Byte) :
    splitFrame (rawFrame tag f) = some (tag, f) := by
  obtain ⟨start, declLen, payload, trailer⟩ := f
  have hok : trailer.length = 2 ∨ payload = [] ∧ trailer.length = 1 := (frameOk_iff _).1 h
  have hlen : 1 ≤ (payload ++ trailer).length := by
    rw [List.length_append]; omega
  rw [rawFrame, splitFrame_of_le start tag declLen _ hlen, slice_eq_take_drop]
  obtain htwo | ⟨rfl, hone⟩ := hok
  · have hend : (payload ++ trailer).length + 1 = payload.length + 3 := by simp [htwo]
    rw [hend]
    simp
  · simp [hone]

/-- What the positional split gives, put together again, is the raw read (40_frame_codec.md R142). -/
theorem rawFrame_of_splitFrame {raw : Bytes} {tag : Byte} {f : Frame} (h : splitFrame raw = some (tag, f)) :
    rawFrame tag f = raw := by
  unfold splitFrame at h
  split at h
  next start tag' declLen rest =>
    split_ifs at h
    cases h
    have hlen : (start :: tag :: declLen :: rest).length - trailerLen = rest.length + 1 := by
      simp [trailerLen]
    simp only [rawFrame, hlen, payloadLo, slice_eq_take_drop]
    obtain hrest | hrest := Nat.lt_or_ge rest.length 2
    · have hmax : max 3 (rest.length + 1) = 3 := by omega
      have hnone : rest.length + 1 - 3 = 0 := by omega
      simp [hmax, hnone]
    · have hmax : max 3 (rest.length + 1) = rest.length + 1 - 3 + 3 := by omega
      simp [hmax]
  next => cases h

theorem encode_of_decodeRsp {raw : Bytes} {i : Instr} (h : decodeRsp raw = .ok i) : encode i = .rsp raw := by
  obtain ⟨f, ⟨hsplit, rfl⟩ | ⟨hsplit, rfl⟩ | ⟨hsplit, rfl⟩⟩ := Machine.decodeRsp_ok h <;>
    rw [encode, rawFrame_of_splitFrame hsplit]

/-- All four operation codes are read (30_encoding.md R110). -/
theorem encode_decodeHost (op : BitVec 2) (a : HostArgs) : encode (decodeHost op a) = .hostop op a := by
  have codes : ∀ op : BitVec 2, op = 0 ∨ op = 1 ∨ op = 2 ∨ op = 3 := by decide
  obtain rfl | rfl | rfl | rfl := codes op <;> rfl

theorem decode_rawFrameR {f : Frame} (h : frameOk f = true) : decode (.rsp (rawFrame tagR f)) = .ok (.rspR f) := by
  simp only [decode, decodeRsp, splitFrame_rawFrame h, if_true]

theorem decode_rawFrameE {f : Frame} (h : frameOk f = true) : decode (.rsp (rawFrame tagE f)) = .ok (.rspE f) := by
  simp only [decode, decodeRsp, splitFrame_rawFrame h]; rfl

theorem decode_rawFrameT {f : Frame} (h : frameOk f = true) : decode (.rsp (rawFrame tagT f)) = .ok (.rspT f) := by
  simp only [decode, decodeRsp, splitFrame_rawFrame h]; rfl

/-! ### The statements -/

/-- Settles O2, constructor by constructor: the pair of a command is its row of the command map, and a chunk or a nonce
within its bound keeps the length byte from wrapping. -/
theorem decodeOfEncode : Obligations.DecodeOfEncode := by
  have chunk {c : Bytes} (h : chunkOk c = true) : c.length ≤ 255 := ((chunkOk_iff c).1 h).2.trans (by decide)
  intro i h
  cases i with
  | setiClr | setkClr | setaClr | hash | status => exact decode_logicalFrame (Nat.zero_le _) rfl
  | setiApp c | setkApp c | setaApp c => exact decode_logicalFrame (chunk h) rfl
  | perfEnc n | perfDec n => exact decode_logicalFrame ((nonceOk_iff n).1 h) rfl
  | rspR f => exact decode_rawFrameR h
  | rspE f => exact decode_rawFrameE h
  | rspT f => exact decode_rawFrameT h
  | hostEncrypt _ | hostDecrypt _ | hostHash _ | hostStatus _ => rfl

/-- Settles O3, format by format: each decoder reads only what ENCODE writes. -/
theorem encodeOfDecode : Obligations.EncodeOfDecode := by
  intro e i h
  cases e with
  | cmd frame =>
    cases hd : decodeCmd frame <;> simp only [decode, hd] at h <;> cases h
    exact encode_of_decodeCmd hd
  | rsp raw =>
    cases hd : decodeRsp raw <;> simp only [decode, hd] at h <;> cases h
    exact encode_of_decodeRsp hd
  | hostop op a =>
    cases h
    exact encode_decodeHost op a

/-- Settles O4: `splitFrame_by_position` on the tag and the length that a read of four bytes has; its payload is a slice of
the read, so it is the read byte by byte. -/
theorem decodeIsPositional : Obligations.DecodeIsPositional := by
  intro raw
  refine ⟨splitFrame_of_lt raw, fun hlen => ?_⟩
  have htag : raw[1]? = some raw[1] := List.getElem?_eq_getElem _
  have hdecl : raw[2]? = some raw[2] := List.getElem?_eq_getElem _
  obtain ⟨f, hsplit, hdeclLen, hpayload, hrawLen⟩ := splitFrame_by_position hlen htag hdecl
  refine ⟨_, f, hsplit, htag, hdeclLen ▸ hdecl, ?_, fun j hj => ?_, hrawLen⟩
  · rw [hpayload, List.length_take, List.length_drop]
    omega
  · rw [hpayload, List.getElem?_take_of_lt hj, List.getElem?_drop]

/-- Settles O5: the wire gives back the frame of the command (R141), and DECODE the command of the frame. -/
theorem wireBytesRecoverTheCommand : Obligations.WireBytesRecoverTheCommand := by
  intro w i frame hwf henc
  rw [w.unwrap_wrap_of_encode hwf henc, ← henc]
  exact decodeOfEncode i hwf

/-- Settles O1: the decoder run on each word. -/
theorem writtenOutWordsDecode : Obligations.WrittenOutWordsDecode := by
  unfold Obligations.WrittenOutWordsDecode
  decide

end Sys2Proof
end

section
/-! What a step writes, by kind (43_sequencer.md R230 to R233): the cases of `StepTo` that write the same registers are one
case here. The invariants of the Sequencer, the Segmenter, the Accumulator and `ERR` are read off these kinds. -/

namespace Sys2Proof.Machine

/-! ### The kinds of step -/

/-- `r` is `s` after an interaction with an agent: the registers that say what the block does next are those of `s`. `RXF`,
`STAT`, `OUT`, the nonce, the agents and the history may differ. -/
structure Interacted (s r : State) : Prop where
  cfg : r.cfg = s.cfg
  bind : r.bind = s.bind
  seq : r.seq = s.seq
  buffer : ∀ role, r.ses.buffer role = s.ses.buffer role
  seg : r.seg = s.seg
  acc : r.acc = s.acc
  err : r.err = s.err
  par : r.par = s.par

theorem Interacted.refl (s : State) : Interacted s s := ⟨rfl, rfl, rfl, fun _ => rfl, rfl, rfl, rfl, rfl⟩

theorem Interacted.emit (s : State) (e : Event) : Interacted s (s.emit e) :=
  ⟨rfl, rfl, rfl, fun _ => rfl, rfl, rfl, rfl, rfl⟩

theorem Interacted.afterRead (s : State) (tc : TimeoutClass) : Interacted s (s.afterRead tc) :=
  ⟨rfl, rfl, rfl, fun _ => rfl, rfl, rfl, rfl, rfl⟩

theorem Interacted.drawNonce (s : State) (n : Nat) : Interacted s (s.drawNonce n) :=
  ⟨rfl, rfl, rfl, fun role => by cases role <;> rfl, rfl, rfl, rfl, rfl⟩

theorem Interacted.afterCapture (s : State) : Interacted s s.afterCapture :=
  ⟨rfl, rfl, rfl, fun _ => rfl, rfl, rfl, rfl, rfl⟩

theorem Interacted.afterTrace (s : State) : Interacted s s.afterTrace := ⟨rfl, rfl, rfl, fun _ => rfl, rfl, rfl, rfl, rfl⟩

/-- Latching what was read writes `RXF` only (40_frame_codec.md R145). -/
theorem Interacted.latched {s r u : State} (h : Interacted s r)
    (hu : (∃ tag f, u = r.latchFrame tag f) ∨ ∃ n, u = r.latchUnfilled n) : Interacted s u := by
  obtain ⟨hcfg, hbind, hseq, hbuffer, hseg, hacc, herr, hpar⟩ := h
  obtain ⟨tag, f, rfl⟩ | ⟨n, rfl⟩ := hu <;> exact ⟨hcfg, hbind, hseq, hbuffer, hseg, hacc, herr, hpar⟩

theorem Interacted.macroStep {s r : State} (h : Interacted s r) : r.macroStep? = s.macroStep? := by
  rw [State.macroStep?, State.macroStep?, h.seq]

theorem Interacted.uploadBuffer {s r : State} (h : Interacted s r) : r.uploadBuffer = s.uploadBuffer := by
  rw [State.uploadBuffer, State.uploadBuffer, h.seg, h.buffer]

theorem Interacted.phaseAfterAck {s r : State} (h : Interacted s r) : r.phaseAfterAck = s.phaseAfterAck := by
  rw [State.phaseAfterAck, State.phaseAfterAck, h.uploadBuffer, h.seg]

/-- A passed acknowledgment in an upload moves the Segmenter's phase (41_segmenter.md R173, R177). -/
theorem State.ackPassed_of_upload {s : State} {role : Role} (h : s.macroStep? = some (.upload role)) :
    s.ackPassed = s.setPhase s.phaseAfterAck := by
  rw [State.ackPassed, h]

/-- A passed acknowledgment of an ACK macro-step advances (43_sequencer.md R247). -/
theorem State.ackPassed_of_ack {s : State} {stage : Stage} (h : s.macroStep? = some (.ack stage)) :
    s.ackPassed = s.advance := by
  rw [State.ackPassed, h]

/-- `SEG` after a step of an upload that goes on (41_segmenter.md R171 to R177). -/
def State.nextSeg (s : State) : Segmenter :=
  match s.seg.phase with
  | .check => { s.seg with phase := .sendClear }
  | .sendClear => { s.seg with phase := .ackClear }
  | .sendAppend => { s.seg with phase := .ackAppend, off := s.seg.off + s.nextChunk.length }
  | .ackClear | .ackAppend => { s.seg with phase := s.phaseAfterAck }
  | .done => s.seg

/-- The kinds of step. Each running step but the last interacts, and then writes one of `ERR`, `SEQ.PC`, `SEG` and `ACC`. -/
inductive StepKind (s : State) : State → Prop
  | accepted (op : HostOp) (a : HostArgs) (hidle : s.seq.state = .idle) : StepKind s (s.afterHost.accept op a)
  /-- The first construction (70_reset_and_hazards.md R311). -/
  | constructed (cfg : LinkConfig) (hidle : s.seq.state = .idle) (hunbound : s.bind.linkBound = false) :
      StepKind s { State.reset with
        cfg := cfg, bind := { linkBound := true, flashed := true }, par := s.par, env := s.env.afterHost,
        hist := s.hist ++ [.flash] }
  /-- Nothing presented, or a construction with a live link. -/
  | waited (hidle : s.seq.state = .idle) : StepKind s s.afterHost
  /-- The operation fails with a listed cause, in a DRAIN only at its read (60_exceptions.md R275, R280). -/
  | failed (r : State) (cls : ErrClass) (stage : Stage) (code : Byte) (hrun : s.seq.state = .run) (hr : Interacted s r)
      (hcause : causeListed cls stage code)
      (hdrain : s.macroStep? = some .drain → s.acc.state = .awaiting ∨ s.acc.state = .accumulating) :
      StepKind s (r.fail cls stage code)
  /-- The macro-step is complete and another follows (43_sequencer.md R232). -/
  | advanced (r : State) (m : MacroStep) (hrun : s.seq.state = .run) (hr : Interacted s r) (hm : s.macroStep? = some m)
      (hne : m ≠ .complete) : StepKind s r.advance
  /-- An upload goes on. -/
  | uploading (r : State) (role : Role) (hrun : s.seq.state = .run) (hr : Interacted s r)
      (hm : s.macroStep? = some (.upload role)) : StepKind s { r with seg := s.nextSeg }
  /-- A drain reads a frame that it accepts. -/
  | draining (r : State) (acc : Accumulator) (hrun : s.seq.state = .run) (hr : Interacted s r)
      (hm : s.macroStep? = some .drain) (hold : s.acc.state = .awaiting ∨ s.acc.state = .accumulating)
      (hnew : acc.state = .accumulating ∨ acc.state = .done) : StepKind s { r with acc := acc }
  | completed (hrun : s.seq.state = .run) (hm : s.macroStep? = some .complete) : StepKind s s.completeStep

/-- A drain that reads is not at its end (42_accumulator.md R201). -/
theorem readSite_drainState {s : State} {site : ReadSite} (h : s.readSite? = some site)
    (hm : s.macroStep? = some .drain) : s.acc.state = .awaiting ∨ s.acc.state = .accumulating := by
  obtain ⟨-, ⟨_, hm', -, -⟩ | ⟨_, hm', -⟩ | ⟨-, hstate, -⟩ | ⟨hm', -⟩⟩ := readSite_cases h
  · cases hm.symm.trans hm'
  · cases hm.symm.trans hm'
  · exact hstate
  · cases hm.symm.trans hm'

/-- A read is no COMPLETE. -/
theorem readSite_macroStep {s : State} {site : ReadSite} (h : s.readSite? = some site) :
    ∃ m, s.macroStep? = some m ∧ m ≠ .complete := by
  obtain ⟨-, ⟨_, hm, -, -⟩ | ⟨_, hm, -⟩ | ⟨hm, -, -⟩ | ⟨hm, -⟩⟩ := readSite_cases h <;> exact ⟨_, hm, nofun⟩

/-- What a read at a site ends in, by kind. -/
theorem ReadTo.kind {s t : State} {site : ReadSite} (hsite : s.readSite? = some site)
    (h : ReadTo site (s.afterRead site.timeoutClass) t) : StepKind s t := by
  obtain ⟨hrun, hcases⟩ := readSite_cases hsite
  have latch (tag : Byte) (f : Frame) : Interacted s ((s.afterRead site.timeoutClass).latchFrame tag f) :=
    (Interacted.afterRead s _).latched (.inl ⟨tag, f, rfl⟩)
  cases h with
  | failed r cls code hr hcause =>
    exact .failed r cls _ code hrun ((Interacted.afterRead s _).latched hr) hcause (readSite_drainState hsite)
  | acked f stage hs =>
    have hr := latch tagE f
    obtain ⟨role, hm, hphase, -⟩ | ⟨_, hm, -⟩ | ⟨-, -, hdrain⟩ | ⟨-, hstatus⟩ := hcases
    · have hseg : s.nextSeg = { s.seg with phase := s.phaseAfterAck } := by
        obtain hphase | hphase := hphase <;> rw [State.nextSeg, hphase]
      rw [State.ackPassed_of_upload (hr.macroStep.trans hm), hr.phaseAfterAck, State.setPhase, hr.seg, ← hseg]
      exact .uploading _ role hrun hr hm
    · rw [State.ackPassed_of_ack (hr.macroStep.trans hm)]
      exact .advanced _ _ hrun hr hm nofun
    · cases hs.symm.trans hdrain
    · cases hs.symm.trans hstatus
  | chunk f hs _ =>
    subst hs
    exact .draining _ _ hrun (latch tagR f) (macroStep_of_drain hsite)
      (readSite_drainState hsite (macroStep_of_drain hsite)) (.inl rfl)
  | terminator f hs =>
    subst hs
    exact .draining _ _ hrun (latch tagT f) (macroStep_of_drain hsite)
      (readSite_drainState hsite (macroStep_of_drain hsite)) (.inr rfl)
  | flags f a b _ =>
    obtain ⟨m, hm, hne⟩ := readSite_macroStep hsite
    obtain ⟨hcfg, hbind, hseq, hbuffer, hseg, hacc, herr, hpar⟩ := latch tagR f
    exact .advanced _ m hrun ⟨hcfg, hbind, hseq, hbuffer, hseg, hacc, herr, hpar⟩ hm hne

/-- The inversion of `step` by kind. -/
theorem step_kind {s t : State} (h : step s = .next t) : StepKind s t := by
  have advanced {r : State} {m : MacroStep} (hrun : s.seq.state = .run) (hr : Interacted s r)
      (hm : s.macroStep? = some m) (hne : m ≠ .complete := by nofun) : StepKind s r.advance :=
    .advanced r m hrun hr hm hne
  have failed {r : State} {m : MacroStep} {cls : ErrClass} {stage : Stage} (hrun : s.seq.state = .run)
      (hr : Interacted s r) (hm : s.macroStep? = some m) (hcause : causeListed cls stage 0)
      (hne : m ≠ .drain := by nofun) : StepKind s (r.fail cls stage 0) :=
    .failed r cls stage 0 hrun hr hcause fun hdrain => absurd (Option.some.inj (hm.symm.trans hdrain)) hne
  have uploading {r : State} {role : Role} {seg : Segmenter} (hrun : s.seq.state = .run) (hr : Interacted s r)
      (hm : s.macroStep? = some (.upload role)) (hseg : s.nextSeg = seg) : StepKind s { r with seg := seg } :=
    hseg ▸ .uploading r role hrun hr hm
  cases step_to h with
  | accepted op a hi => exact .accepted op a hi
  | constructed cfg hi =>
    cases hb : s.bind.linkBound with
    | true => rw [State.construct_of_bound (s := s.afterHost) hb]; exact .waited hi
    | false => rw [State.construct_of_unbound (s := s.afterHost) hb]; exact .constructed cfg hi hb
  | waited hi => exact .waited hi
  | flushed hr hm => exact advanced hr (.emit s _) hm
  | checkFailed role hr hm hp hl =>
    exact failed hr (.refl s) hm ⟨by cases s.seg.role <;> rfl, rfl⟩
  | checked role hr hm hp hl => exact uploading hr (.refl s) hm (by rw [State.nextSeg, hp])
  | clearSent role hr hm hp => exact uploading hr (.emit s _) hm (by rw [State.nextSeg, hp]; rfl)
  | appendSent role hr hm hp => exact uploading hr (.emit s _) hm (by rw [State.nextSeg, hp]; rfl)
  | uploaded role hr hm hp => exact advanced hr (.refl s) hm
  | nonceDrawn hr hm hn => exact advanced hr (.drawNonce s _) hm
  | nonceKept hr hm hn => exact advanced hr (.refl s) hm
  | armed hr hm => exact advanced hr (.emit s _) hm
  | nonceTooLong hr hm hn =>
    obtain hm | hm := hm <;> exact failed hr (.refl s) hm ⟨rfl, rfl⟩
  | encryptSent hr hm hn => exact advanced hr (.emit s _) hm
  | decryptSent hr hm hn => exact advanced hr (.emit s _) hm
  | hashSent hr hm => exact advanced hr (.emit s _) hm
  | statusSent hr hm => exact advanced hr (.emit s _) hm
  | read site t hsite hread => exact hread.kind hsite
  | drained hr hm hd => exact advanced hr (.refl s) hm
  | captureFailed hr hm hc => exact failed hr (.afterCapture s) hm ⟨rfl, rfl⟩
  | captured hr hm hc => exact advanced hr (.afterCapture s) hm
  | traced hr hm => exact advanced hr (.afterTrace s) hm
  | completed hr hm => exact .completed hr hm

/-! ### The configuration and the records -/

/-- No step writes the OPEN parameters, and only the first construction writes `CFG` and `BIND` (10_state.md R30, R31). -/
theorem StepKind.par_eq {s t : State} (h : StepKind s t) : t.par = s.par := by
  cases h with
  | accepted _ _ _ | constructed _ _ _ | waited _ | completed _ _ => rfl
  | failed r _ _ _ _ hr _ _ | uploading r _ _ hr _ | draining r _ _ hr _ _ _ => exact hr.par
  | advanced r _ _ hr _ _ => exact r.advance_par.trans hr.par

/-- A step leaves `CFG` and `BIND`, or it is the first construction (70_reset_and_hazards.md R311). -/
theorem StepKind.link_cases {s t : State} (h : StepKind s t) :
    (t.cfg = s.cfg ∧ t.bind = s.bind) ∨
      (s.bind.linkBound = false ∧ t.bind = { linkBound := true, flashed := true } ∧ t.hist = s.hist ++ [.flash]) := by
  cases h with
  | accepted _ _ _ | waited _ | completed _ _ => exact .inl ⟨rfl, rfl⟩
  | constructed _ _ hunbound => exact .inr ⟨hunbound, rfl, rfl⟩
  | failed r _ _ _ _ hr _ _ | uploading r _ _ hr _ | draining r _ _ hr _ _ _ => exact .inl ⟨hr.cfg, hr.bind⟩
  | advanced r _ _ hr _ _ => exact .inl ⟨r.advance_cfg.trans hr.cfg, r.advance_bind.trans hr.bind⟩

/-- Settles O48: the first construction is the one step that writes `CFG` or `BIND`, and it finds the block unbound. -/
theorem configurationIsFixed : Obligations.ConfigurationIsFixed := by
  intro s t h
  refine ⟨(step_kind h).par_eq, fun hbound => ?_⟩
  obtain hsame | ⟨hunbound, -⟩ := (step_kind h).link_cases
  · exact hsame
  · cases hbound.symm.trans hunbound

/-- Settles O49: of the three kinds of step in `IDLE`, acceptance leaves it, the first construction finds no link, and
waiting writes no register. -/
theorem recordsStayUntilAcceptance : Obligations.RecordsStayUntilAcceptance := by
  intro s t hidle hbound h hidle'
  cases step_kind h with
  | accepted _ _ _ => cases hidle'
  | constructed _ _ hunbound => cases hbound.symm.trans hunbound
  | waited _ => rfl
  | failed _ _ _ _ hrun _ _ _ | advanced _ _ hrun _ _ _ | uploading _ _ hrun _ _ | draining _ _ hrun _ _ _ _
  | completed hrun _ => cases hidle.symm.trans hrun

/-! ### The Accumulator's transitions -/

/-- Settles O52: a drain writes `ACC.STATE` only at a read, which it makes while it awaits or accumulates; every other write
is `AWAITING`. -/
theorem accumulatorTransitions : Obligations.AccumulatorTransitions := by
  intro s t h
  cases step_kind h with
  | accepted _ _ _ => exact .inr (.inl rfl)
  | constructed _ _ _ => exact .inr (.inl rfl)
  | waited _ => exact .inl rfl
  | failed r cls stage code _ hr _ hdrain =>
    rw [State.fail_acc, hr.macroStep, hr.acc]
    split
    case isTrue hm =>
      obtain hold | hold := hdrain hm
      · exact .inr (.inr (.inl hold))
      · exact .inr (.inr (.inr ⟨hold, .inr rfl⟩))
    case isFalse => exact .inl rfl
  | advanced r _ _ hr _ _ =>
    obtain ⟨-, hacc⟩ | ⟨-, hacc⟩ := r.advance_acc <;> rw [hacc]
    · exact .inr (.inl rfl)
    · exact .inl (congrArg _ hr.acc)
  | uploading r _ _ hr _ => exact .inl (congrArg _ hr.acc)
  | draining r acc _ hr _ hold hnew =>
    obtain hold | hold := hold
    · exact .inr (.inr (.inl hold))
    · obtain hnew | hnew := hnew
      · exact .inl (hnew.trans hold.symm)
      · exact .inr (.inr (.inr ⟨hold, .inl hnew⟩))
  | completed _ _ => exact .inl rfl

/-! ### The error record -/

/-- `ErrOk` looks at `ERR`, the parameters and whether the block is in `IDLE`. -/
theorem State.ErrOk.of_eq {s t : State} (h : s.ErrOk) (hstate : t.seq.state = s.seq.state) (herr : t.err = s.err)
    (hpar : t.par = s.par) : t.ErrOk := by
  rw [State.ErrOk, hstate, herr, hpar]; exact h

/-- While an operation runs, `ERR` is clear (60_exceptions.md R283). -/
theorem State.ErrOk.clear_of_run {s : State} (h : s.ErrOk) (hrun : s.seq.state = .run) : s.err = .reset := by
  obtain hclear | ⟨hidle, -⟩ := h
  · exact hclear
  · cases hidle.symm.trans hrun

/-- A failure with a listed cause leaves its record (60_exceptions.md R280). -/
theorem State.errOk_fail (s : State) {cls : ErrClass} {stage : Stage} {code : Byte} (h : causeListed cls stage code) :
    (s.fail cls stage code).ErrOk :=
  .inr ⟨rfl, rfl, h, errKnown_iff s.par cls code⟩

/-- Settles O40: every failure of a step has a listed cause, and no other step writes `ERR` but to clear it. -/
theorem stepKeepsErrorRecord : Obligations.StepKeepsErrorRecord := by
  intro s t hs h
  cases step_kind h with
  | accepted _ _ _ => exact .inl rfl
  | constructed _ _ _ => exact .inl rfl
  | waited _ => exact hs.of_eq rfl rfl rfl
  | failed r _ _ _ _ _ hcause _ => exact r.errOk_fail hcause
  | advanced r _ hrun hr _ _ => exact .inl (r.advance_err.trans (hr.err.trans (hs.clear_of_run hrun)))
  | uploading r _ hrun hr _ | draining r _ hrun hr _ _ _ => exact .inl (hr.err.trans (hs.clear_of_run hrun))
  | completed hrun _ => exact .inl (hs.clear_of_run hrun)

/-! ### The Segmenter -/

/-- `SegOk` looks at `SEG` and the length of the buffer it uploads. -/
theorem State.SegOk.of_eq {s t : State} (h : s.SegOk) (hseg : t.seg = s.seg) (hbuf : t.uploadBuffer = s.uploadBuffer) :
    t.SegOk := by
  rw [State.SegOk, hseg, hbuf]; exact h

theorem Interacted.segOk {s r : State} (hr : Interacted s r) (h : s.SegOk) : r.SegOk := h.of_eq hr.seg hr.uploadBuffer

/-- At the entry of an upload nothing is sent (41_segmenter.md R170). -/
theorem State.segOk_of_entry {s : State} (hphase : s.seg.phase = .check) (hoff : s.seg.off = 0) : s.SegOk := by
  rw [State.SegOk, hphase, hoff]
  exact ⟨Nat.zero_le _, rfl⟩

/-- An upload that goes on keeps `SEG.OFF` in its place: an append takes it on by a whole chunk or to the end of the buffer
(41_segmenter.md R174), and the acknowledgment looks whether the end is reached (R173, R177). -/
theorem State.SegOk.nextSeg {s t : State} (h : s.SegOk) (hseg : t.seg = s.nextSeg)
    (hbuf : ∀ role, t.ses.buffer role = s.ses.buffer role) : t.SegOk := by
  have hbuf : t.uploadBuffer = s.ses.buffer s.nextSeg.role := by rw [State.uploadBuffer, hseg, hbuf]
  have hrole : s.nextSeg.role = s.seg.role := by unfold State.nextSeg; split <;> rfl
  rw [State.SegOk, hseg, hbuf, hrole, ← State.uploadBuffer]
  obtain ⟨hle, hplace⟩ := h
  cases hp : s.seg.phase <;> rw [hp] at hplace <;> simp only [State.nextSeg, hp, State.phaseAfterAck] at hplace ⊢
  case check | sendClear => exact ⟨hle, hplace⟩
  case ackClear =>
    obtain hempty | hne := eq_or_ne s.uploadBuffer.length 0
    · rw [if_pos hempty]
      exact ⟨hle, hplace.trans hempty.symm⟩
    · rw [if_neg hne]
      exact ⟨hle, by omega, by rw [hplace]; rfl⟩
  case sendAppend =>
    have hlen : s.nextChunk.length = min 100 (s.uploadBuffer.length - s.seg.off) := chunkAt_length ..
    simp only [chunkSize] at hplace ⊢
    omega
  case ackAppend =>
    obtain hend | hne := eq_or_ne s.seg.off s.uploadBuffer.length
    · rw [if_pos hend]
      exact ⟨hle, hend⟩
    · rw [if_neg hne]
      exact ⟨hle, by omega, hplace.2.resolve_left hne⟩
  case done => exact ⟨hle, hplace⟩

/-- Settles O39: entering an upload and going on with it keep `SEG.OFF` in its place, and no other step writes `SEG` or a
buffer but to clear both. -/
theorem stepKeepsSegmenterInvariant : Obligations.StepKeepsSegmenterInvariant := by
  intro s t hs h
  cases step_kind h with
  | accepted _ _ _ => exact State.segOk_of_entry rfl rfl
  | constructed _ _ _ => exact State.segOk_of_entry rfl rfl
  | waited _ => exact hs.of_eq rfl rfl
  | failed r cls stage code _ hr _ _ => exact (hr.segOk hs).of_eq (r.fail_seg cls stage code) rfl
  | advanced r _ _ hr _ _ =>
    obtain ⟨role, -, hseg⟩ | ⟨-, hseg⟩ := r.advance_seg
    · exact State.segOk_of_entry (by rw [hseg]) (by rw [hseg])
    · exact (hr.segOk hs).of_eq hseg (by rw [State.uploadBuffer, hseg, r.advance_ses, ← State.uploadBuffer])
  | uploading r _ _ hr _ => exact hs.nextSeg rfl hr.buffer
  | draining r _ _ hr _ _ _ => exact (hr.segOk hs).of_eq rfl rfl
  | completed _ _ => exact hs.of_eq rfl rfl

/-! ### Safe states -/

/-- No instruction is refused or faults, whatever the state (00_scope.md R4). -/
theorem exec_next (i : Instr) (s : State) : ∃ t, exec i s = .next t := by
  cases i with
  | rspR f => simp only [exec, execRspR]; split <;> exact ⟨_, rfl⟩
  | rspE f => simp only [exec, execRspE]; split <;> exact ⟨_, rfl⟩
  | rspT f => simp only [exec, execRspT]; split <;> exact ⟨_, rfl⟩
  | setiClr | setiApp _ | setkClr | setkApp _ | setaClr | setaApp _ | perfEnc _ | perfDec _ | hash | status
  | hostEncrypt _ | hostDecrypt _ | hostHash _ | hostStatus _ => exact ⟨_, rfl⟩

/-- A read is always answered, `EMPTY` included (60_exceptions.md R296). -/
theorem readActivity_not_stuck (site : ReadSite) (s : State) (f : Fault) : s.readActivity site ≠ .stuck f := by
  unfold State.readActivity
  split
  · nofun
  · split <;> nofun

theorem uploadActivity_not_stuck (s : State) (f : Fault) : s.uploadActivity ≠ .stuck f := by
  unfold State.uploadActivity
  cases s.seg.phase with
  | ackClear | ackAppend => exact readActivity_not_stuck _ s f
  | check | sendClear | sendAppend | done => nofun

theorem idleActivity_not_stuck (s : State) (f : Fault) : s.idleActivity ≠ .stuck f := by
  unfold State.idleActivity
  split <;> nofun

/-- A safe state is at a macro-step, and at none of the two faults of the model (log 7). -/
theorem State.Safe.not_stuck {s : State} (h : s.Safe) (f : Fault) : s.activity ≠ .stuck f := by
  obtain ⟨hpc, hdrain⟩ := h
  cases hstate : s.seq.state with
  | idle => simp only [State.activity, hstate]; exact idleActivity_not_stuck s f
  | run =>
    obtain ⟨m, hm⟩ : ∃ m, s.macroStep? = some m := ⟨_, List.getElem?_eq_getElem hpc⟩
    simp only [State.activity, hstate, State.runActivity, hm]
    cases m with
    | upload role => exact uploadActivity_not_stuck s f
    | drain =>
      unfold State.drainActivity
      cases hacc : s.acc.state with
      | awaiting | accumulating => exact readActivity_not_stuck _ s f
      | done => nofun
      | failed => exact absurd hacc (hdrain hstate hm)
    | ack stage => exact readActivity_not_stuck _ s f
    | readStatus => exact readActivity_not_stuck _ s f
    | flush | nonce | arm | performEnc | performDec | performHash | capture | trace | sendStatus | complete => nofun

theorem State.Safe.step_next {s : State} (h : s.Safe) : ∃ t, step s = .next t := by
  cases hact : s.activity with
  | runs i u => simp only [step, hact]; exact exec_next i u
  | goes t => exact ⟨t, by simp only [step, hact]⟩
  | stuck f => exact absurd hact (h.not_stuck f)

/-- At position 0 of its program every operation is at FLUSH (43_sequencer.md R231). -/
theorem safe_of_pc_zero {s : State} (h : s.seq.pc = 0) : s.Safe := by
  have hm : s.macroStep? = some .flush := by
    rw [State.macroStep?, h]
    cases s.seq.op <;> rfl
  exact ⟨pcOk_of_macroStep hm, fun _ hdrain => by cases hm.symm.trans hdrain⟩

/-- In `IDLE` no drain runs. -/
theorem safe_of_idle {s : State} (hpc : s.PcOk) (h : s.seq.state = .idle) : s.Safe :=
  ⟨hpc, fun hrun => by cases h.symm.trans hrun⟩

theorem State.PcOk.of_seq {s t : State} (h : s.PcOk) (hop : t.seq.op = s.seq.op) (hpc : t.seq.pc = s.seq.pc) :
    t.PcOk := by
  rw [State.PcOk, hop, hpc]; exact h

/-- Every step from a safe state ends in one: `SEQ.PC` moves only from a macro-step that is not the last, and a drain that
runs on has just been entered or has accepted a frame. -/
theorem StepKind.keeps_safe {s t : State} (h : StepKind s t) (hs : s.Safe) : t.Safe := by
  obtain ⟨hpc, -⟩ := hs
  cases h with
  | accepted _ _ _ | constructed _ _ _ => exact safe_of_pc_zero rfl
  | waited hidle => exact safe_of_idle hpc hidle
  | failed r cls stage code _ hr _ _ =>
    exact safe_of_idle (hpc.of_seq (by rw [State.fail_seq, hr.seq]) (by rw [State.fail_seq, hr.seq])) rfl
  | advanced r m _ hr hm hne =>
    have hpc' : r.bumpPc.PcOk :=
      bumpPc_pcOk r (hpc.of_seq (by rw [hr.seq]) (by rw [hr.seq])) (by rw [hr.macroStep, hm]; simpa using hne)
    refine ⟨hpc'.of_seq (by rw [r.advance_seq]; rfl) (by rw [r.advance_seq]; rfl), fun _ hdrain => ?_⟩
    obtain ⟨-, hacc⟩ | ⟨hnot, -⟩ := r.advance_acc
    · rw [hacc]; nofun
    · exact absurd (r.advance_macroStep.symm.trans hdrain) hnot
  | uploading r role _ hr hm =>
    have hm' : r.macroStep? = some (.upload role) := hr.macroStep.trans hm
    exact ⟨pcOk_of_macroStep hm', fun _ hdrain => by cases hm'.symm.trans hdrain⟩
  | draining r acc _ hr hm _ hnew =>
    have hm' : r.macroStep? = some .drain := hr.macroStep.trans hm
    refine ⟨pcOk_of_macroStep hm', fun _ _ => ?_⟩
    obtain hnew | hnew := hnew <;> exact hnew ▸ nofun
  | completed _ _ => exact safe_of_idle (hpc.of_seq rfl rfl) rfl

/-- Settles O38: a safe state is never stuck and no instruction is refused, and each kind of step keeps safety. -/
theorem safeStatesStepToSafeStates : Obligations.SafeStatesStepToSafeStates := by
  intro s hs
  obtain ⟨t, h⟩ := hs.step_next
  exact ⟨t, h, (step_kind h).keeps_safe hs⟩

end Sys2Proof.Machine
end

section
/-! What a step adds to the event history (20_memory.md R92, 00_scope.md R11): nothing, one interaction, or a response,
which a failing step may give after its interaction. The rules about histories are read off these cases. -/

namespace Sys2Proof.Machine

/-! ### The events of a step -/

/-- The interactions of a running step other than a send, each at its macro-step. -/
inductive Call (s : State) : Event → Prop
  | flush (hm : s.macroStep? = some .flush) : Call s .flush
  | read (site : ReadSite) (hsite : s.readSite? = some site) : Call s (.read site.timeoutClass s.linkAnswer)
  | entropy (n : Nat) (answer : Bytes) (hm : s.macroStep? = some .nonce) : Call s (.entropy n answer)
  | arm (hm : s.macroStep? = some .arm) : Call s .arm
  | capture (timedOut : Bool) (hm : s.macroStep? = some .capture) : Call s (.capture timedOut)
  | trace (samples : List Sample) (hm : s.macroStep? = some .trace) : Call s (.trace samples)

/-- A send from `s` to `t`: an outbound command in its encoding, after which the block is at the read of its answer. -/
structure Sends (s t : State) (i : Instr) (cmd scmd : Byte) (payload : Bytes) : Prop where
  before : s.readSite? = none
  after : t.readSite?.isSome = true
  encoded : encode i = .cmd (logicalFrame cmd scmd payload)
  length_le : payload.length ≤ 255
  wellFormed : s.SegOk → i.wellFormed = true

/-- What a step from `s` to `t` adds to the history. -/
inductive StepEvents (s t : State) : List Event → Prop
  | quiet (h : s.seq.state = .run → t.seq.state = .run) : StepEvents s t []
  | flashed (hidle : s.seq.state = .idle) (hunbound : s.bind.linkBound = false) (hbound : t.bind.linkBound = true) :
      StepEvents s t [.flash]
  | called (e : Event) (hrun : s.seq.state = .run) (hrun' : t.seq.state = .run) (he : Call s e) : StepEvents s t [e]
  | sent (i : Instr) (cmd scmd : Byte) (payload : Bytes) (hrun : s.seq.state = .run) (hrun' : t.seq.state = .run)
      (hsends : Sends s t i cmd scmd payload) : StepEvents s t [.send cmd scmd payload]
  | failed (err : ErrorReg) (hvalid : err.valid = true) (hrun : s.seq.state = .run) (hidle : t.seq.state = .idle) :
      StepEvents s t [.respond (failResponse err)]
  | calledAndFailed (e : Event) (he : Call s e) (err : ErrorReg) (hvalid : err.valid = true)
      (hrun : s.seq.state = .run) (hidle : t.seq.state = .idle) : StepEvents s t [e, .respond (failResponse err)]
  | completed (hrun : s.seq.state = .run) (hidle : t.seq.state = .idle) : StepEvents s t [.respond s.completeResponse]

/-! ### Sends -/

/-- The clear and append commands of a role are encoded with its tag (30_encoding.md R103). -/
theorem encode_clearCommand (role : Role) : encode (clearCommand role) = .cmd (logicalFrame role.tag 0x01 []) := by
  cases role <;> rfl

theorem encode_appendCommand (role : Role) (chunk : Bytes) :
    encode (appendCommand role chunk) = .cmd (logicalFrame role.tag 0x00 chunk) := by
  cases role <;> rfl

theorem wellFormed_appendCommand (role : Role) (chunk : Bytes) :
    (appendCommand role chunk).wellFormed = chunkOk chunk := by
  cases role <;> rfl

/-- The chunk of an append is never empty while `SEG.OFF` is in its place (41_segmenter.md R176). -/
theorem State.SegOk.chunkOk_nextChunk {s : State} (h : s.SegOk) (hphase : s.seg.phase = .sendAppend) :
    chunkOk s.nextChunk = true := by
  obtain ⟨-, hplace⟩ := h
  rw [hphase] at hplace
  have hlen : s.nextChunk.length = min 100 (s.uploadBuffer.length - s.seg.off) := chunkAt_length ..
  rw [chunkOk_iff, hlen]
  omega

/-- In a macro-step that sends a command by itself no read is in progress, and it advances to the read of its answer
(43_sequencer.md R231). -/
theorem readSite_of_perform {s r : State} {m : MacroStep} (hrun : s.seq.state = .run) (hr : Interacted s r)
    (hm : s.macroStep? = some m) (hsend : m ∈ [.performEnc, .performDec, .performHash, .sendStatus]) :
    s.readSite? = none ∧ r.advance.readSite?.isSome = true := by
  have hrun' : r.advance.seq.state = .run := by rw [r.advance_seq, hr.seq]; exact hrun
  obtain ⟨hdrain, hstatus⟩ := macroStep_after_send r
  rw [hr.macroStep, hm] at hdrain hstatus
  have into_drain (hnext : r.bumpPc.macroStep? = some .drain) : r.advance.readSite?.isSome = true := by
    have hm' : r.advance.macroStep? = some .drain := r.advance_macroStep.trans hnext
    have hacc : r.advance.acc.state = .awaiting := by rw [r.advance_eq_drain hnext]
    simp only [State.readSite?, hrun', hm', hacc, Option.isSome_some]
  simp only [List.mem_cons, List.not_mem_nil, or_false] at hsend
  obtain rfl | rfl | rfl | rfl := hsend
  · exact ⟨by simp only [State.readSite?, hrun, hm], into_drain (hdrain (by simp))⟩
  · exact ⟨by simp only [State.readSite?, hrun, hm], into_drain (hdrain (by simp))⟩
  · exact ⟨by simp only [State.readSite?, hrun, hm], into_drain (hdrain (by simp))⟩
  · have hm' : r.advance.macroStep? = some .readStatus := r.advance_macroStep.trans (hstatus rfl)
    exact ⟨by simp only [State.readSite?, hrun, hm], by simp only [State.readSite?, hrun', hm', Option.isSome_some]⟩

/-! ### The inversion -/

/-- A read adds itself, and the response of a failure (40_frame_codec.md R145, 60_exceptions.md R280). -/
theorem ReadTo.events {s t : State} {site : ReadSite} (hsite : s.readSite? = some site)
    (h : ReadTo site (s.afterRead site.timeoutClass) t) : ∃ es, t.hist = s.hist ++ es ∧ StepEvents s t es := by
  obtain ⟨hrun, -⟩ := readSite_cases hsite
  have hcall : Call s (.read site.timeoutClass s.linkAnswer) := .read site hsite
  cases h with
  | failed r cls code hr _ =>
    have hhist : r.hist = s.hist ++ [.read site.timeoutClass s.linkAnswer] := by
      obtain ⟨tag, f, rfl⟩ | ⟨n, rfl⟩ := hr <;> rfl
    exact ⟨_, by rw [State.fail_hist, hhist, List.append_assoc]; rfl, .calledAndFailed _ hcall _ rfl hrun rfl⟩
  | acked f _ _ =>
    obtain ⟨-, -, -, -, -, -, -, -, -, hhist, hstate, -⟩ :=
      State.ackPassed_frame ((s.afterRead site.timeoutClass).latchFrame tagE f)
    exact ⟨_, hhist, .called _ hrun (hstate.trans hrun) hcall⟩
  | chunk _ _ _ | terminator _ _ => exact ⟨_, rfl, .called _ hrun hrun hcall⟩
  | flags _ _ _ _ => exact ⟨_, State.advance_hist _, .called _ hrun (by rw [State.advance_seq]; exact hrun) hcall⟩

/-- The inversion of `step` by its events. -/
theorem step_events {s t : State} (h : step s = .next t) : ∃ es, t.hist = s.hist ++ es ∧ StepEvents s t es := by
  have running {r : State} (hr : Interacted s r) (hrun : s.seq.state = .run) : r.advance.seq.state = .run := by
    rw [r.advance_seq, hr.seq]; exact hrun
  have quiet (hrun : s.seq.state = .run) : ∃ es, s.advance.hist = s.hist ++ es ∧ StepEvents s s.advance es :=
    ⟨[], by rw [s.advance_hist, List.append_nil], .quiet (running (.refl s))⟩
  have called {r : State} {e : Event} (hr : Interacted s r) (hhist : r.hist = s.hist ++ [e]) (hrun : s.seq.state = .run)
      (he : Call s e) : ∃ es, r.advance.hist = s.hist ++ es ∧ StepEvents s r.advance es :=
    ⟨[e], r.advance_hist.trans hhist, .called e hrun (running hr hrun) he⟩
  have performed {cmd scmd : Byte} {payload : Bytes} {m : MacroStep} (i : Instr) (hrun : s.seq.state = .run)
      (hm : s.macroStep? = some m) (hsend : m ∈ [.performEnc, .performDec, .performHash, .sendStatus])
      (henc : encode i = .cmd (logicalFrame cmd scmd payload)) (hlen : payload.length ≤ 255) (hwf : i.wellFormed = true) :
      ∃ es, (s.emit (.send cmd scmd payload)).advance.hist = s.hist ++ es ∧
        StepEvents s (s.emit (.send cmd scmd payload)).advance es := by
    have hr := Interacted.emit s (.send cmd scmd payload)
    obtain ⟨hbefore, hafter⟩ := readSite_of_perform hrun hr hm hsend
    exact ⟨_, State.advance_hist _, .sent i _ _ _ hrun (running hr hrun) ⟨hbefore, hafter, henc, hlen, fun _ => hwf⟩⟩
  cases step_to h with
  | accepted op a hi => exact ⟨[], (List.append_nil _).symm, .quiet fun _ => rfl⟩
  | constructed cfg hi =>
    cases hb : s.bind.linkBound with
    | true =>
      rw [State.construct_of_bound (s := s.afterHost) hb]
      exact ⟨[], (List.append_nil _).symm, .quiet id⟩
    | false =>
      rw [State.construct_of_unbound (s := s.afterHost) hb]
      exact ⟨[.flash], rfl, .flashed hi hb rfl⟩
  | waited hi => exact ⟨[], (List.append_nil _).symm, .quiet id⟩
  | flushed hr hm => exact called (.emit s _) rfl hr (.flush hm)
  | checkFailed role hr hm hp hl => exact ⟨_, rfl, .failed _ rfl hr rfl⟩
  | checked role hr hm hp hl => exact ⟨[], (List.append_nil _).symm, .quiet id⟩
  | clearSent role hr hm hp =>
    refine ⟨_, rfl, .sent (clearCommand s.seg.role) _ _ _ hr hr
      ⟨?_, ?_, encode_clearCommand _, Nat.zero_le _, fun _ => ?_⟩⟩
    · simp only [State.readSite?, hr, hm, hp]
    · simp only [State.readSite?, State.setPhase_seq, State.emit_seq, State.setPhase_macroStep, State.emit_macroStep,
        State.setPhase_seg, hr, hm, Option.isSome_some]
    · cases s.seg.role <;> rfl
  | appendSent role hr hm hp =>
    refine ⟨_, rfl, .sent (appendCommand s.seg.role s.nextChunk) _ _ _ hr hr
      ⟨?_, ?_, encode_appendCommand _ _, chunkAt_length_le _ _, fun hs => ?_⟩⟩
    · simp only [State.readSite?, hr, hm, hp]
    · simp only [State.readSite?, State.appended_seq, State.emit_seq, State.appended_macroStep, State.emit_macroStep,
        State.appended_seg, hr, hm, Option.isSome_some]
    · rw [wellFormed_appendCommand]; exact hs.chunkOk_nextChunk hp
  | uploaded role hr hm hp => exact quiet hr
  | nonceDrawn hr hm hn => exact called (.drawNonce s _) rfl hr (.entropy _ _ hm)
  | nonceKept hr hm hn => exact quiet hr
  | armed hr hm => exact called (.emit s _) rfl hr (.arm hm)
  | nonceTooLong hr hm hn => exact ⟨_, rfl, .failed _ rfl hr rfl⟩
  | encryptSent hr hm hn => exact performed (.perfEnc _) hr hm (by decide) rfl hn ((nonceOk_iff _).2 hn)
  | decryptSent hr hm hn => exact performed (.perfDec _) hr hm (by decide) rfl hn ((nonceOk_iff _).2 hn)
  | hashSent hr hm => exact performed .hash hr hm (by decide) rfl (Nat.zero_le _) rfl
  | statusSent hr hm => exact performed .status hr hm (by decide) rfl (Nat.zero_le _) rfl
  | read site t hsite hread => exact hread.events hsite
  | drained hr hm hd => exact quiet hr
  | captureFailed hr hm hc =>
    exact ⟨_, List.append_assoc .., .calledAndFailed _ (.capture _ hm) _ rfl hr rfl⟩
  | captured hr hm hc => exact called (.afterCapture s) rfl hr (.capture _ hm)
  | traced hr hm => exact called (.afterTrace s) rfl hr (.trace _ hm)
  | completed hr hm => exact ⟨_, rfl, .completed hr rfl⟩

/-- The events of a step, where its history is known as the one before with something added. -/
theorem stepEvents_of_hist {s t : State} {es : List Event} (h : step s = .next t) (hhist : t.hist = s.hist ++ es) :
    StepEvents s t es := by
  obtain ⟨es', hhist', hevents⟩ := step_events h
  exact List.append_cancel_left (hhist.symm.trans hhist') ▸ hevents

theorem Call.isResponse {s : State} {e : Event} (h : Call s e) : e.isResponse = false := by cases h <;> rfl

theorem Call.isFlash {s : State} {e : Event} (h : Call s e) : e.isFlash = false := by cases h <;> rfl

/-! ### Responses -/

/-- Settles O46: by the inversion, two events are an interaction and the response of a failure. -/
theorem oneInteractionPerStep : Obligations.OneInteractionPerStep := by
  intro s t h
  obtain ⟨es, hhist, hevents⟩ := step_events h
  refine ⟨es, hhist, ?_⟩
  cases hevents with
  | quiet _ | flashed _ _ _ | called _ _ _ _ | sent _ _ _ _ _ _ _ | failed _ _ _ _ | completed _ _ => trivial
  | calledAndFailed e he _ _ _ _ => exact ⟨he.isResponse, rfl⟩

/-- Settles O47: a running step responds exactly where it leaves `RUN`. -/
theorem oneResponsePerOperation : Obligations.OneResponsePerOperation := by
  intro s t h
  obtain ⟨es, hhist, hevents⟩ := step_events h
  rw [hhist, responseCount, List.countP_append, ← responseCount]
  have here (hrun : s.seq.state = .run) (hcount : es.countP Event.isResponse = if t.seq.state = .idle then 1 else 0) :
      (s.seq.state = .run → responseCount s.hist + es.countP Event.isResponse =
        responseCount s.hist + (if t.seq.state = .idle then 1 else 0)) ∧
      (s.seq.state = .idle → responseCount s.hist + es.countP Event.isResponse = responseCount s.hist) :=
    ⟨fun _ => by rw [hcount], fun hidle => by cases hrun.symm.trans hidle⟩
  cases hevents with
  | quiet hstays => exact ⟨fun hrun => by rw [hstays hrun]; rfl, fun _ => rfl⟩
  | flashed hidle _ _ => exact ⟨fun hrun => (by cases hidle.symm.trans hrun), fun _ => rfl⟩
  | called e hrun hrun' he => exact here hrun (by simp [he.isResponse, hrun'])
  | sent _ _ _ _ hrun hrun' _ => exact here hrun (by rw [hrun']; rfl)
  | failed _ _ hrun hidle => exact here hrun (by rw [hidle]; rfl)
  | calledAndFailed e he _ _ hrun hidle => 
    exact here hrun (by rw [List.countP_cons_of_neg (by simp [he.isResponse]), hidle]; rfl)
  | completed hrun hidle => exact here hrun (by rw [hidle]; rfl)

/-- The failure's response carries nothing but the record (60_exceptions.md R280). -/
theorem failResponse_wellFormed {err : ErrorReg} (h : err.valid = true) : (failResponse err).wellFormed :=
  ⟨nofun, fun _ => ⟨h, rfl, rfl, rfl, rfl, rfl, rfl⟩⟩

/-- COMPLETE responds with success and no error (43_sequencer.md R246). -/
theorem completeResponse_wellFormed (s : State) : s.completeResponse.wellFormed := by
  unfold State.completeResponse
  split <;> exact ⟨fun _ => rfl, nofun⟩

/-- Settles O42: a step responds with a failure's record or with COMPLETE's response. -/
theorem stepKeepsResponsesWhole : Obligations.StepKeepsResponsesWhole := by
  intro s t hs h r hr
  obtain ⟨es, hhist, hevents⟩ := step_events h
  rw [hhist, List.mem_append] at hr
  obtain hold | hnew := hr
  · exact hs r hold
  have call_ne {e : Event} (he : Call s e) : Event.respond r ≠ e := by
    rintro rfl; cases he
  cases hevents with
  | quiet _ => cases hnew
  | flashed _ _ _ | sent _ _ _ _ _ _ _ => cases List.mem_singleton.1 hnew
  | called e _ _ he => exact absurd (List.mem_singleton.1 hnew) (call_ne he)
  | failed _ hvalid _ _ =>
    cases List.mem_singleton.1 hnew
    exact failResponse_wellFormed hvalid
  | calledAndFailed e he _ hvalid _ _ =>
    cases List.mem_singleton.1 ((List.mem_cons.1 hnew).resolve_left (call_ne he))
    exact failResponse_wellFormed hvalid
  | completed _ _ =>
    cases List.mem_singleton.1 hnew
    exact completeResponse_wellFormed s

/-! ### Flashing -/

/-- Settles O44: the first construction flashes and binds, and no other step does either. -/
theorem stepKeepsFlashedOnce : Obligations.StepKeepsFlashedOnce := by
  rintro s t ⟨hflag, hcount⟩ h
  obtain ⟨-, hbind⟩ | ⟨hunbound, hbind, hhist⟩ := (step_kind h).link_cases
  · obtain ⟨es, hhist, hevents⟩ := step_events h
    have hnone : es.countP Event.isFlash = 0 := by
      cases hevents with
      | quiet _ | sent _ _ _ _ _ _ _ | failed _ _ _ _ | completed _ _ => rfl
      | flashed _ hunbound hbound => rw [hbind, hunbound] at hbound; cases hbound
      | called e _ _ he => simp [he.isFlash]
      | calledAndFailed e he _ _ _ _ => rw [List.countP_cons_of_neg (by simp [he.isFlash])]; rfl
    exact ⟨by rw [hbind, hflag], by rw [hhist, List.countP_append, hnone, hbind, Nat.add_zero, hcount]⟩
  · rw [State.FlashOk, hbind, hhist, List.countP_append, hcount, hunbound]
    exact ⟨rfl, rfl⟩

/-! ### Sends and their answers -/

theorem scanLink_append (awaiting : Bool) (h es : List Event) :
    scanLink awaiting (h ++ es) = (scanLink awaiting h).bind (scanLink · es) := by
  induction h generalizing awaiting with
  | nil => rfl
  | cons e h ih =>
    cases e with
    | send _ _ _ | flush => cases awaiting <;> simp [scanLink, ih]
    | read _ _ | arm | capture _ | trace _ | entropy _ _ | respond _ | flash => simp [scanLink, ih]

/-- With no send awaiting its read, a call leaves none awaiting it. -/
theorem Call.scanLink {s : State} {e : Event} (h : Call s e) (es : List Event) :
    scanLink false (e :: es) = scanLink false es := by
  cases h <;> rfl

/-- Settles O41. Where a read is in progress the step begins with it, so a send that awaits its read gets it; where none is,
no send awaits one, and a send of this step leaves the block at a read. -/
theorem stepKeepsSendReadAlternation : Obligations.StepKeepsSendReadAlternation := by
  rintro s t ⟨awaiting, hscan, hread⟩ h
  have settled {es : List Event} (hhist : t.hist = s.hist ++ es) (hes : scanLink awaiting es = some false) : t.LinkOk :=
    ⟨false, by rw [hhist, scanLink_append, hscan]; exact hes, nofun⟩
  cases hsite : s.readSite? with
  | some site =>
    obtain ⟨es, hhist⟩ := step_records_read hsite h
    rw [List.append_assoc] at hhist
    refine settled hhist.symm ?_
    cases stepEvents_of_hist h hhist.symm <;> rfl
  | none =>
    obtain rfl : awaiting = false := by
      cases awaiting
      · rfl
      · cases hsite ▸ hread rfl
    obtain ⟨es, hhist, hevents⟩ := step_events h
    cases hevents with
    | quiet _ | flashed _ _ _ | failed _ _ _ _ | completed _ _ => exact settled hhist rfl
    | called e _ _ he => exact settled hhist (he.scanLink [])
    | calledAndFailed e he _ _ _ _ => exact settled hhist (he.scanLink _)
    | sent i cmd scmd payload _ _ hsends =>
      exact ⟨true, by rw [hhist, scanLink_append, hscan]; rfl, fun _ => hsends.after⟩

/-- Settles O50: the one event of such a step is a send, and a send is an outbound command in its encoding. -/
theorem onlyListedCommandsAreSent : Obligations.OnlyListedCommandsAreSent := by
  intro s t cmd scmd payload h hhist
  cases stepEvents_of_hist h hhist with
  | called _ _ _ he => cases he
  | sent i _ _ _ _ _ hsends => exact ⟨i, hsends.encoded, hsends.length_le, hsends.wellFormed⟩

/-! ### The instrument -/

/-- Only ENCRYPT and HASH have the macro-steps of the instrument (43_sequencer.md R260 to R262). -/
theorem op_of_instrument {s : State} {m : MacroStep} (h : s.macroStep? = some m) (hm : m ∈ [.arm, .capture, .trace]) :
    s.seq.op = .encrypt ∨ s.seq.op = .hash := by
  have hmem : m ∈ program s.seq.op := List.mem_of_getElem? h
  revert hmem
  simp only [List.mem_cons, List.not_mem_nil, or_false] at hm
  obtain rfl | rfl | rfl := hm <;> cases s.seq.op <;> decide

/-- A call of the instrument is made at its macro-step. -/
theorem Call.instrument {s : State} {e : Event} (h : Call s e) (he : e.isInstrument = true) :
    (s.seq.op = .encrypt ∨ s.seq.op = .hash) ∧
      (e = .arm ∧ s.macroStep? = some .arm ∨ (∃ b, e = .capture b) ∧ s.macroStep? = some .capture ∨
        (∃ x, e = .trace x) ∧ s.macroStep? = some .trace) := by
  cases h with
  | arm hm => exact ⟨op_of_instrument hm (by decide), .inl ⟨rfl, hm⟩⟩
  | capture b hm => exact ⟨op_of_instrument hm (by decide), .inr (.inl ⟨⟨b, rfl⟩, hm⟩)⟩
  | trace x hm => exact ⟨op_of_instrument hm (by decide), .inr (.inr ⟨⟨x, rfl⟩, hm⟩)⟩
  | flush _ | read _ _ | entropy _ _ _ => cases he

/-- Settles O51: of the events of a step only its calls may concern the instrument. -/
theorem instrumentCalledOnlyInItsMacroSteps : Obligations.InstrumentCalledOnlyInItsMacroSteps := by
  intro s t e events h hhist hmem he
  cases stepEvents_of_hist h hhist with
  | quiet _ => cases hmem
  | flashed _ _ _ | sent _ _ _ _ _ _ _ | failed _ _ _ _ | completed _ _ => cases List.mem_singleton.1 hmem; cases he
  | called e' hrun _ hcall =>
    cases List.mem_singleton.1 hmem
    exact ⟨hrun, hcall.instrument he⟩
  | calledAndFailed e' hcall _ _ hrun _ =>
    obtain rfl | hmem := List.mem_cons.1 hmem
    · exact ⟨hrun, hcall.instrument he⟩
    · cases List.mem_singleton.1 hmem; cases he

end Sys2Proof.Machine
end

section
/-! What runs an instruction (43_sequencer.md R230): the step decodes an answer or a request, or the program selects a
command; and every well-formed instruction can be placed where the next step runs it (log 11). -/

namespace Sys2Proof.Machine

/-! ### Reads and requests -/

/-- An answer that is one of the three inbound classes is run at its read site (40_frame_codec.md R145). -/
theorem activity_of_read {s : State} {site : ReadSite} (hsite : s.readSite? = some site) {raw : Bytes} {i : Instr}
    (ha : s.linkAnswer = some raw) (hd : decodeRsp raw = .ok i) :
    s.activity = .runs i (s.afterRead site.timeoutClass) := by
  rw [activity_of_readSite hsite]
  simp only [State.readActivity, ha, hd]

theorem step_of_read {s : State} {site : ReadSite} (hsite : s.readSite? = some site) {raw : Bytes} {i : Instr}
    (ha : s.linkAnswer = some raw) (hd : decodeRsp raw = .ok i) :
    step s = exec i (s.afterRead site.timeoutClass) := by
  simp only [step, activity_of_read hsite ha hd]

/-- A request met in `IDLE` is run as its operation (43_sequencer.md R233). -/
theorem activity_of_request {s : State} (hidle : s.seq.state = .idle) {r : HostRequest}
    (ha : s.hostAnswer = some (.request r)) : s.activity = .runs (decodeHost r.op r.args) s.afterHost := by
  simp only [State.activity, hidle, State.idleActivity, ha, hostRequestInstr]

theorem step_of_request {s : State} (hidle : s.seq.state = .idle) {r : HostRequest}
    (ha : s.hostAnswer = some (.request r)) : step s = exec (decodeHost r.op r.args) s.afterHost := by
  simp only [step, activity_of_request hidle ha]

theorem decodeRsp_of_decode {raw : Bytes} {i : Instr} (h : decode (.rsp raw) = .ok i) : decodeRsp raw = .ok i := by
  cases hd : decodeRsp raw <;> simp only [decode, hd] at h <;> cases h
  rfl

/-- Settles O6: DECODE says what a request and an answer are, and `SEQ.PC` with `SEG.PHASE` what command is selected. -/
theorem stepRunsTheDecodedInstruction : Obligations.StepRunsTheDecodedInstruction := by
  intro s
  refine ⟨fun r i hidle ha hd => ?_, fun site raw i hsite ha hd => step_of_read hsite ha (decodeRsp_of_decode hd),
    fun role hrun hm hphase => ?_, fun role hrun hm hphase => ?_, fun hrun hm => ?_, fun hrun hm => ?_,
    fun hrun hm => ?_, fun hrun hm => ?_⟩
  · cases hd
    exact step_of_request hidle ha
  · simp only [step, activity_of_upload hrun hm, State.uploadActivity, hphase]
  · simp only [step, activity_of_upload hrun hm, State.uploadActivity, hphase]
  · exact step_of_runs hrun (by simp only [State.runActivity, hm])
  · exact step_of_runs hrun (by simp only [State.runActivity, hm])
  · exact step_of_runs hrun (by simp only [State.runActivity, hm])
  · exact step_of_runs hrun (by simp only [State.runActivity, hm])

/-! ### Placing an instruction -/

/-- A buffer of at most `CHUNK_SIZE` bytes is its own first chunk (41_segmenter.md R174). -/
theorem chunkAt_zero {buf : Bytes} (h : buf.length ≤ 100) : chunkAt buf 0 = buf := by
  rw [chunkAt_eq_take_drop, List.drop_zero, List.take_of_length_le]
  simp only [chunkSize]
  omega

/-- What a placed upload command finds in its buffer is its chunk. -/
theorem activity_of_placeAppend {role : Role} {pc : BitVec 4} {ses : Session} (s : State)
    (hm : (program .encrypt)[pc.toNat]? = some (.upload role)) (hchunk : chunkOk (ses.buffer role) = true) :
    (s.placeAppend role pc ses).activity =
      .runs (appendCommand role (ses.buffer role)) (s.placeAppend role pc ses) := by
  rw [activity_of_upload (s := s.placeAppend role pc ses) rfl hm]
  simp only [State.uploadActivity, State.nextChunk, State.uploadBuffer, State.placeAppend,
    chunkAt_zero ((chunkOk_iff _).1 hchunk).2]

theorem activity_of_placeClear {role : Role} {pc : BitVec 4} (s : State)
    (hm : (program .encrypt)[pc.toNat]? = some (.upload role)) :
    (s.placeClear role pc).activity = .runs (clearCommand role) (s.placeClear role pc) :=
  activity_of_upload (s := s.placeClear role pc) rfl hm

/-- A raw frame placed at a read site is the next answer there. -/
theorem activity_of_placeAnswer {s : State} {site : ReadSite} {raw : Bytes} {i : Instr} (hsite : s.readSite? = some site)
    (hd : decode (.rsp raw) = .ok i) :
    (s.placeAnswer raw).activity = .runs i ((s.placeAnswer raw).afterRead site.timeoutClass) :=
  activity_of_read (s := s.placeAnswer raw) hsite rfl (decodeRsp_of_decode hd)

theorem activity_of_placeRequest (op : BitVec 2) (a : HostArgs) (s : State) :
    (s.placeRequest op a).activity = .runs (decodeHost op a) (s.placeRequest op a).afterHost :=
  activity_of_request (s := s.placeRequest op a) rfl rfl

/-- A placed well-formed instruction is the one the next step runs (log 11). -/
theorem activity_of_place (s : State) {i : Instr} (h : i.wellFormed = true) :
    ∃ t, (s.place i).activity = .runs i t := by
  cases i with
  | setiClr => exact ⟨_, activity_of_placeClear (role := .input) s rfl⟩
  | setkClr => exact ⟨_, activity_of_placeClear (role := .key) s rfl⟩
  | setaClr => exact ⟨_, activity_of_placeClear (role := .ad) s rfl⟩
  | setiApp c => exact ⟨_, activity_of_placeAppend (role := .input) (ses := { s.ses with input := c }) s rfl h⟩
  | setkApp c => exact ⟨_, activity_of_placeAppend (role := .key) (ses := { s.ses with key := c }) s rfl h⟩
  | setaApp c => exact ⟨_, activity_of_placeAppend (role := .ad) (ses := { s.ses with ad := c }) s rfl h⟩
  | perfEnc _ | perfDec _ | hash | status => exact ⟨_, rfl⟩
  | rspR f => exact ⟨_, activity_of_placeAnswer (s := s.atMacroStep .status 2) rfl (decode_rawFrameR h)⟩
  | rspE f => exact ⟨_, activity_of_placeAnswer (s := s.atMacroStep .encrypt 8) rfl (decode_rawFrameE h)⟩
  | rspT f =>
    exact ⟨_, activity_of_placeAnswer (s := { s.atMacroStep .encrypt 7 with acc := { s.acc with state := .awaiting } })
      rfl (decode_rawFrameT h)⟩
  | hostEncrypt a => exact ⟨_, activity_of_placeRequest 0 a s⟩
  | hostDecrypt a => exact ⟨_, activity_of_placeRequest 1 a s⟩
  | hostHash a => exact ⟨_, activity_of_placeRequest 2 a s⟩
  | hostStatus a => exact ⟨_, activity_of_placeRequest 3 a s⟩

/-- Settles O7: the placed instruction is run, and no instruction is refused. -/
theorem placedInstructionRuns : Obligations.PlacedInstructionRuns := by
  intro s i h
  obtain ⟨t, hact⟩ := activity_of_place s h
  obtain ⟨u, hu⟩ := exec_next i t
  exact ⟨t, u, hact, by simp only [step, hact], hu⟩

end Sys2Proof.Machine
end

section
/-! What `exec` does with a command, an inbound frame and a request where the statements write the successor out, and the
steps in `IDLE` and at the end of a drain. -/

namespace Sys2Proof.Machine

/-! ### Outbound commands -/

/-- Settles O8: the clear commands of the three roles. -/
theorem clearCommandsSend : Obligations.ClearCommandsSend :=
  fun s => ⟨exec_clearCommand .input s, exec_clearCommand .key s, exec_clearCommand .ad s⟩

/-- Settles O9: the append commands of the three roles, within the encoder's bound. -/
theorem appendCommandsSend : Obligations.AppendCommandsSend :=
  fun s _ h => ⟨exec_appendCommand .input h s, exec_appendCommand .key h s, exec_appendCommand .ad h s⟩

/-- Settles O12: beyond the bound ENCODE fails, whatever the role. -/
theorem overlongAppendsFail : Obligations.OverlongAppendsFail := by
  intro s p h
  have refused (tag : Byte) (stage : Stage) : s.sendAppend tag p stage = s.fail .payloadTooLong stage 0 :=
    sendCommand_of_gt h ..
  exact ⟨congrArg _ (refused tagI .setInput), congrArg _ (refused tagK .setKey), congrArg _ (refused tagA .setAd)⟩

/-- Settles O10: the bound decides between the send into the drain and the failure. -/
theorem performCommandsSend : Obligations.PerformCommandsSend := by
  intro s nonce
  obtain ⟨hdrain, -⟩ := macroStep_after_send s
  refine ⟨fun h hm => ?_, fun h hm => ?_, fun h _ => ?_, fun h _ => ?_⟩
  · exact congrArg _ (sendCommand_into_drain (hdrain (.inl hm)) tagP scmdOne h .perform)
  · exact congrArg _ (sendCommand_into_drain (hdrain (.inr (.inl hm))) tagP scmdZero h .perform)
  · exact congrArg _ (sendCommand_of_gt h tagP scmdOne .perform State.advance s)
  · exact congrArg _ (sendCommand_of_gt h tagP scmdZero .perform State.advance s)

/-- Settles O11: HASH advances into its drain, STATUS into a macro-step without an entry action. -/
theorem hashAndStatusCommandsSend : Obligations.HashAndStatusCommandsSend := by
  intro s
  obtain ⟨hdrain, -⟩ := macroStep_after_send s
  refine ⟨fun hm => ?_, fun hm => ?_⟩
  · exact congrArg _ (sendCommand_into_drain (hdrain (.inr (.inr hm))) tagH scmdZero (Nat.zero_le _) .perform)
  · have hsent :
        s.sendCommand tagS scmdZero [] .statusQuery State.advance = (s.emit (.send tagS scmdZero [])).bumpPc := by
      rw [sendCommand_of_le (Nat.zero_le _),
        State.advance_eq_bumpPc_of_macroStep (s := s.emit (.send tagS scmdZero [])) hm (by decide)]
    exact congrArg _ hsent

/-! ### Acknowledgments -/

theorem exec_rspE_of_ack {s : State} {stage : Stage} (h : s.readSite? = some (.ack stage)) (f : Frame) :
    exec (.rspE f) s = .next ((s.latchFrame tagE f).acknowledge stage f) := by
  simp only [exec, execRspE, h]

section Acknowledge
variable {s : State} {f : Frame} (stage : Stage)

theorem State.acknowledge_of_empty (h : firstOperand f = none) :
    s.acknowledge stage f = s.fail .malformedFrame stage tagE := by
  simp only [State.acknowledge, h]

theorem State.acknowledge_of_zero (h : firstOperand f = some 0) : s.acknowledge stage f = s.ackPassed := by
  simp only [State.acknowledge, h, if_true]

theorem State.acknowledge_of_ne_zero {status : Byte} (h : firstOperand f = some status) (hne : status ≠ 0) :
    s.acknowledge stage f = s.fail .protocol stage status := by
  simp only [State.acknowledge, h, if_neg hne]

end Acknowledge

/-- An acknowledgment with status 0x00 lets the caller go on in the same step (40_frame_codec.md R146). -/
theorem exec_rspE_passes {s : State} {f : Frame} {stage : Stage} (hsite : s.readSite? = some (.ack stage))
    (hzero : firstOperand f = some 0) : exec (.rspE f) s = .next (s.latchFrame tagE f).ackPassed := by
  rw [exec_rspE_of_ack hsite, State.acknowledge_of_zero stage hzero]

/-- An ACK macro-step advances into one without an entry action (43_sequencer.md R231). -/
theorem State.ackPassed_eq_bumpPc {s : State} {stage : Stage} (h : s.macroStep? = some (.ack stage)) :
    s.ackPassed = s.bumpPc := by
  obtain ⟨hupload, hdrain⟩ := macroStep_after_ack s (.inl ⟨stage, h⟩)
  rw [State.ackPassed_of_ack h, s.advance_eq_bumpPc hupload hdrain]

/-- The two acknowledgments of an upload stand at its read sites (41_segmenter.md R173, R177). -/
theorem readSite_of_upload {s : State} {role : Role} (hrun : s.seq.state = .run) (hm : s.macroStep? = some (.upload role))
    (hphase : s.seg.phase = .ackClear ∨ s.seg.phase = .ackAppend) : s.readSite? = some (.ack s.seg.role.stage) := by
  obtain hphase | hphase := hphase <;> simp only [State.readSite?, hrun, hm, hphase]

theorem readSite_of_ack {s : State} {stage : Stage} (hrun : s.seq.state = .run) (hm : s.macroStep? = some (.ack stage)) :
    s.readSite? = some (.ack stage) := by
  simp only [State.readSite?, hrun, hm]

/-- Settles O16: the macro-step and the phase say who goes on. -/
theorem acknowledgmentPasses : Obligations.AcknowledgmentPasses := by
  intro s f hrun hzero
  refine ⟨fun role hm hphase => ?_, fun role hm hphase => ?_, fun stage hm => ?_⟩
  · rw [exec_rspE_passes (readSite_of_upload hrun hm (.inl hphase)) hzero,
      State.ackPassed_of_upload (s := s.latchFrame tagE f) hm]
    simp only [State.phaseAfterAck, State.latchFrame_seg, hphase, List.length_eq_zero_iff]
    rfl
  · rw [exec_rspE_passes (readSite_of_upload hrun hm (.inr hphase)) hzero,
      State.ackPassed_of_upload (s := s.latchFrame tagE f) hm]
    simp only [State.phaseAfterAck, State.latchFrame_seg, hphase]
    rfl
  · rw [exec_rspE_passes (readSite_of_ack hrun hm) hzero, State.ackPassed_eq_bumpPc (s := s.latchFrame tagE f) hm]
    rfl

theorem decodeRsp_of_tagR {raw : Bytes} {f : Frame} (hsplit : splitFrame raw = some (tagR, f)) :
    decodeRsp raw = .ok (.rspR f) := by
  rw [decodeRsp, hsplit]; rfl

theorem decodeRsp_of_tagE {raw : Bytes} {f : Frame} (hsplit : splitFrame raw = some (tagE, f)) :
    decodeRsp raw = .ok (.rspE f) := by
  rw [decodeRsp, hsplit]; rfl

section AckRead
variable {s : State} {stage : Stage} (hsite : s.readSite? = some (.ack stage)) {raw : Bytes}
  (ha : s.linkAnswer = some raw) {f : Frame}
include hsite ha

/-- An acknowledgment with the tag 'e' is checked further (40_frame_codec.md R146). -/
theorem step_of_ack (hsplit : splitFrame raw = some (tagE, f)) :
    step s = .next (((s.afterRead .ack).latchFrame tagE f).acknowledge stage f) := by
  rw [step_of_read hsite ha (decodeRsp_of_tagE hsplit)]
  exact exec_rspE_of_ack (s := s.afterRead .ack) hsite f

/-- Every other tag is rejected, also those of the two other inbound classes (40_frame_codec.md R146). -/
theorem step_of_rejected_ack {tag : Byte} (hsplit : splitFrame raw = some (tag, f)) (htag : tag ≠ tagE) :
    step s = .next (((s.afterRead .ack).latchFrame tag f).rejectTag (.ack stage) tag) := by
  have hsite' : (s.afterRead .ack).readSite? = some (.ack stage) := hsite
  by_cases hR : tag = tagR
  · subst hR
    rw [step_of_read hsite ha (decodeRsp_of_tagR hsplit)]
    simp only [ReadSite.timeoutClass, exec, execRspR, hsite']
  by_cases hT : tag = tagT
  · subst hT
    rw [step_of_read hsite ha (decodeRsp_of_tagT hsplit)]
    simp only [ReadSite.timeoutClass, exec, execRspT, hsite']
  exact step_of_otherTag ha hsite hsplit hR htag hT

end AckRead

/-- Settles O17: the checks of R146 in their order. -/
theorem acknowledgmentFailures : Obligations.AcknowledgmentFailures := by
  intro s stage hsite
  obtain ⟨hempty, hshort⟩ := unfilledReadsFail s _ hsite
  refine ⟨hempty, hshort, fun raw tag f ha hsplit htag => step_of_rejected_ack hsite ha hsplit htag,
    fun raw f ha hsplit hpayload => ?_, fun raw f status ha hsplit hstatus hne => ?_⟩
  · rw [step_of_ack hsite ha hsplit, State.acknowledge_of_empty stage (firstOperand_of_empty hpayload)]
    rfl
  · rw [step_of_ack hsite ha hsplit, State.acknowledge_of_ne_zero stage hstatus hne]
    rfl

/-! ### Status responses -/

theorem exec_rspR_of_statusResponse {s : State} (h : s.readSite? = some .statusResponse) (f : Frame) :
    exec (.rspR f) s = .next ((s.latchFrame tagR f).acceptFlags f) := by
  simp only [exec, execRspR, h]

theorem macroStep_of_statusResponse {s : State} (h : s.readSite? = some .statusResponse) :
    s.macroStep? = some .readStatus := by
  obtain ⟨-, ⟨_, -, -, hack⟩ | ⟨_, -, hack⟩ | ⟨-, -, hdrain⟩ | ⟨hm, -⟩⟩ := readSite_cases h
  · cases hack
  · cases hack
  · cases hdrain
  · exact hm

/-- The first two bytes of a status response are its flag bytes (43_sequencer.md R251). -/
theorem flagOperands_of_getElem {f : Frame} {a b : Byte} (ha : f.payload[0]? = some a) (hb : f.payload[1]? = some b) :
    flagOperands f = some (a, b) := by
  unfold flagOperands
  match hp : f.payload with
  | [] => rw [hp] at ha; cases ha
  | [_] => rw [hp] at hb; cases hb
  | x :: y :: _ =>
    rw [hp] at ha hb
    cases ha
    cases hb
    rfl

theorem flagOperands_of_lt {f : Frame} (h : f.payload.length < 2) : flagOperands f = none := by
  unfold flagOperands
  match hp : f.payload with
  | [] | [_] => rfl
  | _ :: _ :: _ => rw [hp] at h; simp at h

theorem State.acceptFlags_of_flags {s : State} {f : Frame} {a b : Byte} (h : flagOperands f = some (a, b)) :
    s.acceptFlags f =
      State.advance { s with stat := { s.stat with keyIsDone := flagOf a, inputMinLen := flagOf b } } := by
  simp only [State.acceptFlags, h]

theorem State.acceptFlags_of_short {s : State} {f : Frame} (h : flagOperands f = none) :
    s.acceptFlags f = s.fail .malformedFrame .statusQuery tagR := by
  simp only [State.acceptFlags, h]

/-- Settles O21: whether the frame has two flag bytes decides the branch, and the acknowledgment that follows has no entry
action. -/
theorem statusResponseSetsFlags : Obligations.StatusResponseSetsFlags := by
  intro s f hsite
  obtain ⟨hupload, hdrain⟩ := macroStep_after_ack s (.inr (.inl (macroStep_of_statusResponse hsite)))
  rw [exec_rspR_of_statusResponse hsite]
  refine ⟨fun a b ha hb => ?_, fun hshort => congrArg _ (State.acceptFlags_of_short (flagOperands_of_lt hshort))⟩
  rw [State.acceptFlags_of_flags (flagOperands_of_getElem ha hb)]
  exact congrArg _ (State.advance_eq_bumpPc _ hupload hdrain)

/-- Settles O22: no read site takes the frame. -/
theorem noFrameIsTakenOutsideARead : Obligations.NoFrameIsTakenOutsideARead := by
  intro s f h
  simp only [exec, execRspR, execRspE, execRspT, h, and_self]

/-! ### Requests in `RUN`, waiting, construction -/

/-- Settles O24: a presented request is held with the code of its operation. -/
theorem requestsAreHeldInRun : Obligations.RequestsAreHeldInRun := by
  intro s a op i hrun hop
  have held (op : HostOp) : s.present op a = s.hold op.code a := State.present_of_run hrun op a
  simp only [List.mem_cons, Prod.mk.injEq, List.not_mem_nil, or_false] at hop
  obtain ⟨rfl, rfl⟩ | ⟨rfl, rfl⟩ | ⟨rfl, rfl⟩ | ⟨rfl, rfl⟩ := hop
  · exact congrArg _ (held .encrypt)
  · exact congrArg _ (held .decrypt)
  · exact congrArg _ (held .hash)
  · exact congrArg _ (held .status)

/-- What the step in `IDLE` does when no request is met (43_sequencer.md R230). -/
theorem step_of_idle_goes {s t : State} (hidle : s.seq.state = .idle) (h : s.idleActivity = .goes t) :
    step s = .next t := by
  simp only [step, State.activity, hidle, h]

/-- Settles O25: with nothing presented the step only looks at the host. -/
theorem idleWaits : Obligations.IdleWaits :=
  fun _ hidle ha => step_of_idle_goes hidle (by simp only [State.idleActivity, ha]; rfl)

/-- Settles O28: whether the link is bound decides what a construction does. -/
theorem constructionOnce : Obligations.ConstructionOnce := by
  intro s cfg hidle ha
  have hstep : step s = .next (s.afterHost.construct cfg) :=
    step_of_idle_goes hidle (by simp only [State.idleActivity, ha])
  refine ⟨fun hunbound => ?_, fun hbound => ?_⟩
  · rw [hstep, State.construct_of_unbound (s := s.afterHost) hunbound]
    rfl
  · rw [hstep, State.construct_of_bound (s := s.afterHost) hbound]
    rfl

/-! ### The end of a drain -/

/-- The final acknowledgment follows every drain (43_sequencer.md R231). -/
theorem program_after_drain {op : HostOp} {pc : BitVec 4} (h : (program op)[pc.toNat]? = some .drain) :
    (program op)[(pc + 1).toNat]? = some (.ack .finalAck) := by
  revert pc
  cases op <;> decide

theorem step_of_drainDone {s : State} (hrun : s.seq.state = .run) (hm : s.macroStep? = some .drain)
    (hdone : s.acc.state = .done) : step s = .next s.advance :=
  step_of_goes hrun (by simp only [State.runActivity, hm, State.drainActivity, hdone])

/-- Settles O37: the drain's macro-step is complete, and the acknowledgment has no entry action. -/
theorem drainDoneStep : Obligations.DrainDoneStep := by
  intro s hrun hm hdone
  obtain ⟨hupload, hdrain⟩ := macroStep_after_ack s (by simp [hm])
  refine ⟨?_, program_after_drain hm⟩
  rw [step_of_drainDone hrun hm hdone, s.advance_eq_bumpPc hupload hdrain]
  rfl

/-! ### The reset state and the invariants -/

/-- Settles O45: in the reset state the block is idle at position 0, the registers are clear and nothing has happened. -/
theorem resetMeetsTheInvariants : Obligations.ResetMeetsTheInvariants := by
  refine ⟨?safe, ?seg, ?err, ?link, ?responses, ?result, ?flash⟩
  case safe => exact safe_of_pc_zero rfl
  case seg => exact State.segOk_of_entry rfl rfl
  case err => exact .inl rfl
  case link => exact ⟨false, rfl, nofun⟩
  case responses => intro r hr; cases hr
  case result => exact .of_result_nil rfl
  case flash => exact ⟨rfl, rfl⟩

end Sys2Proof.Machine
end

section
/-! Whole macro-steps: a run through the phases of an upload (41_segmenter.md R180, R182) and through a drain
(42_accumulator.md R210), by induction over the chunks sent and over the frames read. -/

namespace Sys2Proof.Machine

/-! ### Chunks -/

/-- Within the buffer, the slice that 20_memory.md R85 names is the chunk of the append that starts there. -/
theorem slice_eq_chunkAt {buf : Bytes} {off : Nat} (h : off ≤ buf.length) :
    slice buf off (min (off + chunkSize) buf.length) = chunkAt buf off := by
  have hend : off + min chunkSize (buf.length - off) = min (off + chunkSize) buf.length := by omega
  rw [chunkAt, hend]

/-- A buffer has `ceil(len/100)` chunks (41_segmenter.md R181). -/
theorem ceilDiv_chunkSize (n : Nat) : ceilDiv n chunkSize = (n + 99) / 100 := rfl

/-- The `n` chunks from chunk `k` on. -/
def chunksFrom (buf : Bytes) (k n : Nat) : List Bytes := (List.range' k n).map fun k => chunkAt buf (100 * k)

theorem chunksFrom_succ (buf : Bytes) (k n : Nat) :
    chunksFrom buf k (n + 1) = chunkAt buf (100 * k) :: chunksFrom buf (k + 1) n := by
  simp only [chunksFrom, List.range'_succ, List.map_cons]

theorem chunksOf_eq_chunksFrom (buf : Bytes) : chunksOf buf = chunksFrom buf 0 ((buf.length + 99) / 100) := by
  rw [chunksOf, chunksFrom, ceilDiv_chunkSize, List.range_eq_range']
  refine List.map_congr_left fun k hk => ?_
  have hlt : k < (buf.length + 99) / 100 := by simpa using hk
  exact slice_eq_chunkAt (off := 100 * k) (by omega)

/-- The chunks from chunk `k` on are what is left of the buffer there. -/
theorem chunksFrom_flatten (buf : Bytes) (k n : Nat) (h : buf.length ≤ 100 * (k + n)) :
    (chunksFrom buf k n).flatten = buf.drop (100 * k) := by
  induction n generalizing k with
  | zero => exact (List.drop_eq_nil_of_le h).symm
  | succ n ih =>
    have hchunk : chunkAt buf (100 * k) = (buf.drop (100 * k)).take 100 := by
      rw [chunkAt_eq_take_drop, ← List.length_drop, List.take_eq_take_iff]
      simp only [chunkSize]
      omega
    have hrest : buf.drop (100 * (k + 1)) = (buf.drop (100 * k)).drop 100 := by rw [List.drop_drop]; rfl
    rw [chunksFrom_succ, List.flatten_cons, ih (k + 1) (by omega), hchunk, hrest, List.take_append_drop]

/-- Settles O53: the chunks from chunk 0 on are the buffer, and each of them starts inside it. -/
theorem chunksCoverTheBuffer : Obligations.ChunksCoverTheBuffer := by
  intro buf
  rw [chunksOf_eq_chunksFrom]
  refine ⟨?cover, ?count, fun c hc => ?size⟩
  case cover => rw [chunksFrom_flatten buf 0 _ (by omega)]; rfl
  case count => simp only [chunksFrom, List.length_map, List.length_range']
  case size =>
    obtain ⟨k, hk, rfl⟩ := List.mem_map.1 hc
    rw [List.mem_range'_1] at hk
    rw [chunkAt_length]
    simp only [chunkSize]
    omega

/-! ### Runs -/

/-- `n` steps take `s` to `t`. -/
def Runs (n : Nat) (s t : State) : Prop := Host.Core.run core n s = .next t

theorem Runs.of_step {s t : State} (h : step s = .next t) : Runs 1 s t := run_succ core 0 s t h

theorem Runs.trans {m n : Nat} {s t u : State} (h : Runs m s t) (h' : Runs n t u) : Runs (m + n) s u :=
  (run_add core m n s t h).trans h'

/-! ### Reading a scripted answer -/

/-- `s` after it has read the scripted answer `raw`: `rest` is left of the link's script, and `RXF` is written. -/
def State.readScripted (tc : TimeoutClass) (raw : Bytes) (rest : List (Option Bytes)) (rxf : RxFrame) (s : State) :
    State :=
  { s with rxf := rxf, env := { s.env with link := rest }, hist := s.hist ++ [.read tc (some raw)] }

theorem afterRead_of_link {s : State} {raw : Bytes} {rest : List (Option Bytes)} (hlink : s.env.link = some raw :: rest)
    (tc : TimeoutClass) (tag : Byte) (f : Frame) :
    ∃ rxf, (s.afterRead tc).latchFrame tag f = s.readScripted tc raw rest rxf := by
  obtain ⟨hanswer, hafter⟩ := State.linkAnswer_cons hlink
  exact ⟨_, by rw [State.latchFrame, State.afterRead, hanswer, hafter]; rfl⟩

section Scripted
variable {s : State} {raw : Bytes} {rest : List (Option Bytes)} (hlink : s.env.link = some raw :: rest)
include hlink

/-- A passing acknowledgment lets the caller go on (40_frame_codec.md R146). -/
theorem step_of_passing_ack {stage : Stage} (hsite : s.readSite? = some (.ack stage)) (hpass : passesAck raw) :
    ∃ rxf, step s = .next (s.readScripted .ack raw rest rxf).ackPassed := by
  obtain ⟨f, hdecode, hzero⟩ := hpass
  obtain ⟨rxf, hread⟩ := afterRead_of_link hlink .ack tagE f
  refine ⟨rxf, ?_⟩
  rw [step_of_read hsite (State.linkAnswer_cons hlink).1 hdecode, ← hread]
  exact exec_rspE_passes (s := s.afterRead .ack) hsite hzero

/-- A data frame within the bound is appended (42_accumulator.md R202). -/
theorem step_of_data {payload : Bytes} (hsite : s.readSite? = some .drain) (hdata : dataPayload raw = some payload)
    (hfits : ∀ m, s.par.maxResultLen = some m → s.acc.result.length + payload.length ≤ m) :
    ∃ rxf, step s = .next { s.readScripted .cmd raw rest rxf with
      acc := { state := .accumulating, result := s.acc.result ++ payload, nchunk := s.acc.nchunk + 1 } } := by
  unfold dataPayload at hdata
  split at hdata
  next f hdecode =>
    cases hdata
    obtain ⟨rxf, hread⟩ := afterRead_of_link hlink .cmd tagR f
    refine ⟨rxf, ?_⟩
    rw [step_of_read hsite (State.linkAnswer_cons hlink).1 hdecode, ReadSite.timeoutClass,
      exec_rspR_of_drain (s := s.afterRead .cmd) hsite, hread]
    exact congrArg _ (State.acceptChunk_of_fits (s := s.readScripted .cmd raw rest rxf) hfits)
  next => cases hdata

/-- A terminator whose check passes ends the drain (42_accumulator.md R204). -/
theorem step_of_terminator {count : Byte} (hsite : s.readSite? = some .drain) (hcount : terminatorCount raw = some count)
    (hpasses : terminatorFails s.par.termFailOn s.acc.nchunk count = false) :
    ∃ rxf, step s = .next { s.readScripted .cmd raw rest rxf with acc := { s.acc with state := .done } } := by
  unfold terminatorCount at hcount
  split at hcount
  next f hdecode =>
    obtain ⟨rxf, hread⟩ := afterRead_of_link hlink .cmd tagT f
    refine ⟨rxf, ?_⟩
    rw [step_of_read hsite (State.linkAnswer_cons hlink).1 hdecode, ReadSite.timeoutClass,
      exec_rspT_of_drain (s := s.afterRead .cmd) hsite, hread, State.acceptTerminator_of_count hcount]
    exact congrArg _ (if_neg (Bool.eq_false_iff.1 hpasses))
  next => cases hcount

end Scripted

/-! ### Uploads -/

/-- The events of the appends of an upload, each with its acknowledgment (30_encoding.md R112). -/
def appendEvents (tag : Byte) (chunks acks : List Bytes) : List Event :=
  (List.zipWith (fun chunk ack => [Event.send tag 0x00 chunk, Event.read .ack (some ack)]) chunks acks).flatten

theorem uploadEvents_cons (tag : Byte) (buf ack : Bytes) (acks : List Bytes) :
    uploadEvents tag buf (ack :: acks) =
      [.send tag 0x01 [], .read .ack (some ack)] ++ appendEvents tag (chunksOf buf) acks := by
  simp only [uploadEvents, appendEvents, List.zipWith_cons_cons, List.flatten_cons, List.zipWith_map_left]

/-- `s` after part of an upload: the Segmenter, what is left of the link's script, and the events. -/
def State.uploadedTo (phase : SegPhase) (off : Nat) (rest : List (Option Bytes)) (rxf : RxFrame) (events : List Event)
    (s : State) : State :=
  { s with
    seg := { s.seg with phase := phase, off := off }, rxf := rxf, env := { s.env with link := rest },
    hist := s.hist ++ events }

/-- Two parts of an upload, one after the other. -/
theorem State.uploadedTo_uploadedTo (phase phase' : SegPhase) (off off' : Nat) (rest rest' : List (Option Bytes))
    (rxf rxf' : RxFrame) (events events' : List Event) (s : State) :
    (s.uploadedTo phase off rest rxf events).uploadedTo phase' off' rest' rxf' events' =
      s.uploadedTo phase' off' rest' rxf' (events ++ events') := by
  simp only [State.uploadedTo, List.append_assoc]

section Upload
variable {s : State} {role : Role} (hrun : s.seq.state = .run) (hm : s.macroStep? = some (.upload role))
  {rest : List (Option Bytes)}
include hrun hm

/-- A passing acknowledgment of an upload moves its phase (41_segmenter.md R173, R177). -/
theorem step_of_upload_ack (hphase : s.seg.phase = .ackClear ∨ s.seg.phase = .ackAppend) {ack : Bytes}
    (hlink : s.env.link = some ack :: rest) (hpass : passesAck ack) :
    ∃ rxf, step s = .next ((s.readScripted .ack ack rest rxf).setPhase s.phaseAfterAck) := by
  obtain ⟨rxf, hack⟩ := step_of_passing_ack hlink (readSite_of_upload hrun hm hphase) hpass
  exact ⟨rxf, hack.trans (congrArg _ (State.ackPassed_of_upload hm))⟩

/-- One append and its acknowledgment (41_segmenter.md R174, R177). -/
theorem append_runs (hphase : s.seg.phase = .sendAppend) {ack : Bytes} (hlink : s.env.link = some ack :: rest)
    (hpass : passesAck ack) :
    ∃ rxf, Runs 2 s (s.uploadedTo
      (if s.seg.off + s.nextChunk.length = s.uploadBuffer.length then .done else .sendAppend)
      (s.seg.off + s.nextChunk.length) rest rxf [.send s.seg.role.tag 0x00 s.nextChunk, .read .ack (some ack)]) := by
  obtain ⟨rxf, hack⟩ := step_of_upload_ack
    (s := (s.emit (.send s.seg.role.tag 0x00 s.nextChunk)).appended s.nextChunk.length) hrun hm (.inr rfl) hlink hpass
  refine ⟨rxf, .trans (n := 1) (.of_step (step_of_sendAppend hrun hm hphase)) (.of_step (hack.trans (congrArg _ ?_)))⟩
  simp only [State.uploadedTo, State.setPhase, State.readScripted, State.phaseAfterAck, State.appended_seg,
    State.appended_env, State.appended_hist, State.emit_hist, State.emit_env, List.append_assoc]
  rfl

/-- The clear and its acknowledgment, from the entry of the upload (41_segmenter.md R171 to R173). -/
theorem clear_runs (hseg : s.seg = { phase := .check, role := role, off := 0 })
    (hmax : (s.ses.buffer role).length ≤ role.maxLen s.cfg) {ack : Bytes} (hlink : s.env.link = some ack :: rest)
    (hpass : passesAck ack) :
    ∃ rxf, Runs 3 s (s.uploadedTo (if (s.ses.buffer role).length = 0 then .done else .sendAppend) 0 rest rxf
      [.send role.tag 0x01 [], .read .ack (some ack)]) := by
  have hcheck : step s = .next (s.setPhase .sendClear) := by
    rw [step_of_check hrun hm (by rw [hseg]), State.checkStep_of_le (by rw [State.uploadBuffer, hseg]; exact hmax)]
  have hsend := step_of_sendClear (s := s.setPhase .sendClear) hrun hm rfl
  obtain ⟨rxf, hack⟩ := step_of_upload_ack
    (s := ((s.setPhase .sendClear).emit (.send (s.setPhase .sendClear).seg.role.tag 0x01 [])).setPhase .ackClear) hrun hm
    (.inl rfl) hlink hpass
  refine ⟨rxf, .trans (n := 2) (.of_step hcheck) (.trans (n := 1) (.of_step hsend)
    (.of_step (hack.trans (congrArg _ ?_))))⟩
  simp [State.uploadedTo, State.setPhase, State.readScripted, State.phaseAfterAck, State.uploadBuffer, hseg]

/-- The appends from chunk `k` to the last, by induction over their acknowledgments (41_segmenter.md R180). -/
theorem appends_run {acks : List Bytes} (hne : acks ≠ []) {k : Nat} (hphase : s.seg.phase = .sendAppend)
    (hoff : s.seg.off = 100 * k) {buf : Bytes} (hbuf : s.uploadBuffer = buf) {tag : Byte} (htag : s.seg.role.tag = tag)
    (hcount : k + acks.length = (buf.length + 99) / 100) (hpass : ∀ raw ∈ acks, passesAck raw)
    (hlink : s.env.link = acks.map some ++ rest) :
    ∃ rxf, Runs (2 * acks.length) s
      (s.uploadedTo .done buf.length rest rxf (appendEvents tag (chunksFrom buf k acks.length) acks)) := by
  induction acks generalizing s k with
  | nil => exact absurd rfl hne
  | cons ack acks ih =>
    have hchunk : s.nextChunk = chunkAt buf (100 * k) := by rw [State.nextChunk, hbuf, hoff]
    have hlen : s.nextChunk.length = min 100 (buf.length - 100 * k) := by rw [hchunk]; exact chunkAt_length ..
    obtain ⟨rxf, hfirst⟩ := append_runs hrun hm hphase hlink (hpass ack (List.mem_cons_self ..))
    rw [hoff, hbuf, htag] at hfirst
    rw [List.length_cons] at hcount
    cases acks with
    | nil =>
      have hend : 100 * k + s.nextChunk.length = buf.length := by
        rw [hlen]; simp only [List.length_nil] at hcount; omega
      rw [if_pos hend, hend, hchunk] at hfirst
      exact ⟨rxf, hfirst⟩
    | cons ack' acks =>
      have hend : 100 * k + s.nextChunk.length = 100 * (k + 1) := by
        rw [hlen]; simp only [List.length_cons] at hcount; omega
      have hmore : 100 * (k + 1) ≠ buf.length := by
        simp only [List.length_cons] at hcount; omega
      rw [hend, if_neg hmore] at hfirst
      obtain ⟨rxf', hrest⟩ := ih (s := s.uploadedTo .sendAppend (100 * (k + 1)) ((ack' :: acks).map some ++ rest) rxf
        [.send tag 0x00 s.nextChunk, .read .ack (some ack)]) hrun hm (List.cons_ne_nil _ _) (k := k + 1) rfl rfl hbuf htag
        ((Nat.succ_add_eq_add_succ k _).trans hcount) (fun raw h => hpass raw (List.mem_cons_of_mem _ h)) rfl
      rw [State.uploadedTo_uploadedTo] at hrest
      have hboth := hfirst.trans hrest
      rw [hchunk] at hboth
      rw [List.length_cons, chunksFrom_succ, Nat.mul_succ, Nat.add_comm]
      exact ⟨rxf', hboth⟩

/-- A whole upload but for its last step, which leaves the macro-step (41_segmenter.md R180). -/
theorem upload_runs {acks : List Bytes} (hseg : s.seg = { phase := .check, role := role, off := 0 })
    (hmax : (s.ses.buffer role).length ≤ role.maxLen s.cfg)
    (hcount : acks.length = 1 + ((s.ses.buffer role).length + 99) / 100) (hpass : ∀ raw ∈ acks, passesAck raw)
    (hlink : s.env.link = acks.map some ++ rest) :
    ∃ rxf, Runs (3 + 2 * (((s.ses.buffer role).length + 99) / 100)) s
      (s.uploadedTo .done (s.ses.buffer role).length rest rxf (uploadEvents role.tag (s.ses.buffer role) acks)) := by
  obtain ⟨ack, acks, rfl⟩ := List.exists_cons_of_length_eq_add_one (hcount.trans (Nat.add_comm ..))
  have hcount : acks.length = ((s.ses.buffer role).length + 99) / 100 := by
    rw [List.length_cons] at hcount; omega
  obtain ⟨rxf, hclear⟩ := clear_runs hrun hm hseg hmax hlink (hpass ack (List.mem_cons_self ..))
  rw [uploadEvents_cons, chunksOf_eq_chunksFrom, ← hcount]
  obtain rfl | hne := eq_or_ne acks []
  · have hempty : (s.ses.buffer role).length = 0 := by
      simp only [List.length_nil] at hcount; omega
    rw [if_pos hempty] at hclear
    rw [hempty]
    exact ⟨rxf, hclear⟩
  · have hsome : (s.ses.buffer role).length ≠ 0 := by
      have hpos := List.length_pos_iff.2 hne
      omega
    rw [if_neg hsome] at hclear
    obtain ⟨rxf', hrest⟩ := appends_run (s := s.uploadedTo .sendAppend 0 (acks.map some ++ rest) rxf
        [.send role.tag 0x01 [], .read .ack (some ack)]) (buf := s.ses.buffer role) (tag := role.tag) hrun hm hne (k := 0)
      rfl rfl (by simp only [State.uploadBuffer, State.uploadedTo, hseg]) (by simp only [State.uploadedTo, hseg])
      (by rw [hcount, Nat.zero_add]) (fun raw h => hpass raw (List.mem_cons_of_mem _ h)) rfl
    rw [State.uploadedTo_uploadedTo] at hrest
    exact ⟨rxf', hclear.trans hrest⟩

/-- A whole upload (41_segmenter.md R178, R180). -/
theorem upload_completes {acks : List Bytes} (hseg : s.seg = { phase := .check, role := role, off := 0 })
    (hmax : (s.ses.buffer role).length ≤ role.maxLen s.cfg)
    (hcount : acks.length = 1 + ((s.ses.buffer role).length + 99) / 100) (hpass : ∀ raw ∈ acks, passesAck raw)
    (hlink : s.env.link = acks.map some ++ rest) :
    ∃ rxf, Runs (4 + 2 * (((s.ses.buffer role).length + 99) / 100)) s
      (s.uploadedTo .done (s.ses.buffer role).length rest rxf
        (uploadEvents role.tag (s.ses.buffer role) acks)).advance := by
  obtain ⟨rxf, hupload⟩ := upload_runs hrun hm hseg hmax hcount hpass hlink
  have hall := hupload.trans (.of_step (step_of_uploadDone (s := s.uploadedTo ..) hrun hm rfl))
  rw [Nat.add_right_comm] at hall
  exact ⟨rxf, hall⟩

end Upload

/-- Settles O54: the upload's last step advances, which enters the next upload where one follows. -/
theorem uploadRuns : Obligations.UploadRuns := by
  intro s role acks rest hrun hm hseg hmax hcount hpass hlink
  obtain ⟨rxf, hruns⟩ := upload_completes hrun hm hseg hmax hcount hpass hlink
  refine ⟨_, hruns, State.advance_hist _, State.advance_seq _, State.advance_ses _, ?acc, State.advance_err _,
    State.advance_stat _, State.advance_out _, State.advance_cfg _, State.advance_par _, State.advance_bind _,
    State.advance_env _, fun next hnext => ?seg⟩
  case acc =>
    obtain ⟨hdrain, -⟩ | ⟨-, hacc⟩ := State.advance_acc (s.uploadedTo .done (s.ses.buffer role).length rest rxf
      (uploadEvents role.tag (s.ses.buffer role) acks))
    · rw [bumpPc_macroStep (pcOk_of_macroStep (s := s.uploadedTo ..) hm)] at hdrain
      exact absurd hdrain (program_after_upload_ne_drain s.seq.op s.seq.pc role hm)
    · exact hacc
  case seg =>
    rw [State.advance_eq_upload ((bumpPc_macroStep (pcOk_of_macroStep (s := s.uploadedTo ..) hm)).trans hnext)]

/-! ### Drains -/

/-- `s` after part of a drain: the Accumulator, what is left of the link's script, and a read for each answer. -/
def State.drainedTo (acc : Accumulator) (rest : List (Option Bytes)) (rxf : RxFrame) (answers : List Bytes) (s : State) :
    State :=
  { s with acc := acc, rxf := rxf, env := { s.env with link := rest }, hist := s.hist ++ drainEvents answers }

/-- Two parts of a drain, one after the other. -/
theorem State.drainedTo_drainedTo (acc acc' : Accumulator) (rest rest' : List (Option Bytes)) (rxf rxf' : RxFrame)
    (answers answers' : List Bytes) (s : State) :
    (s.drainedTo acc rest rxf answers).drainedTo acc' rest' rxf' answers' =
      s.drainedTo acc' rest' rxf' (answers ++ answers') := by
  simp only [State.drainedTo, drainEvents, List.map_append, List.append_assoc]

theorem State.drainedTo_nil {s : State} {rest : List (Option Bytes)} (h : s.env.link = rest) :
    s.drainedTo s.acc rest s.rxf [] = s := by
  subst h
  simp only [State.drainedTo, drainEvents, List.map_nil, List.append_nil]

theorem resultOf_cons {raw : Bytes} {frames : List Bytes} {result : Bytes} (h : resultOf (raw :: frames) = some result) :
    ∃ payload later, dataPayload raw = some payload ∧ resultOf frames = some later ∧ result = payload ++ later := by
  unfold resultOf at h
  split at h
  next payload later hpayload hlater => cases h; exact ⟨payload, later, hpayload, hlater, rfl⟩
  next => cases h

/-- A drain that awaits or accumulates is at its read (42_accumulator.md R201). -/
theorem readSite_of_drain {s : State} (hrun : s.seq.state = .run) (hm : s.macroStep? = some .drain)
    (hacc : s.acc.state = .awaiting ∨ s.acc.state = .accumulating) : s.readSite? = some .drain := by
  obtain hacc | hacc := hacc <;> simp only [State.readSite?, hrun, hm, hacc]

section Drain
variable {s : State} (hrun : s.seq.state = .run) (hm : s.macroStep? = some .drain) {rest : List (Option Bytes)}
include hrun hm

/-- The data frames of a drain, by induction over them (42_accumulator.md R202, R210). -/
theorem frames_run {frames : List Bytes} {result : Bytes} (hacc : s.acc.state = .awaiting ∨ s.acc.state = .accumulating)
    (hresult : resultOf frames = some result)
    (hfits : ∀ m, s.par.maxResultLen = some m → s.acc.result.length + result.length ≤ m)
    (hlink : s.env.link = frames.map some ++ rest) :
    ∃ rxf state, (state = .awaiting ∨ state = .accumulating) ∧ Runs frames.length s (s.drainedTo
      { state := state, result := s.acc.result ++ result, nchunk := s.acc.nchunk + frames.length } rest rxf frames) := by
  induction frames generalizing s result with
  | nil =>
    cases hresult
    refine ⟨s.rxf, s.acc.state, hacc, ?_⟩
    rw [List.append_nil, List.length_nil, Nat.add_zero]
    exact congrArg _ (State.drainedTo_nil (rest := rest) hlink).symm
  | cons raw frames ih =>
    obtain ⟨payload, later, hpayload, hlater, rfl⟩ := resultOf_cons hresult
    rw [List.length_append] at hfits
    obtain ⟨rxf, hfirst⟩ := step_of_data hlink (readSite_of_drain hrun hm hacc) hpayload
      (fun m h => by have := hfits m h; omega)
    obtain ⟨rxf', state, hstate, hrest⟩ := ih (s := s.drainedTo
        { state := .accumulating, result := s.acc.result ++ payload, nchunk := s.acc.nchunk + 1 }
        (frames.map some ++ rest) rxf [raw]) hrun hm (.inr rfl) hlater
      (fun m h => by
        have := hfits m h
        simp only [State.drainedTo, List.length_append]
        omega) rfl
    have hboth := Runs.trans (.of_step hfirst) hrest
    rw [State.drainedTo_drainedTo] at hboth
    refine ⟨rxf', state, hstate, ?_⟩
    rw [List.length_cons, Nat.add_comm frames.length 1, ← Nat.add_assoc, ← List.append_assoc]
    exact hboth

/-- A whole drain but for its last step, which leaves the macro-step (42_accumulator.md R210). -/
theorem drain_runs {frames : List Bytes} {last result : Bytes} {count : Byte}
    (hacc : s.acc = { state := .awaiting, result := [], nchunk := 0 }) (hresult : resultOf frames = some result)
    (hcount : terminatorCount last = some count)
    (hpasses : terminatorFails s.par.termFailOn frames.length count = false)
    (hfits : ∀ m, s.par.maxResultLen = some m → result.length ≤ m)
    (hlink : s.env.link = (frames ++ [last]).map some ++ rest) :
    ∃ rxf, Runs (frames.length + 1) s
      (s.drainedTo { state := .done, result := result, nchunk := frames.length } rest rxf (frames ++ [last])) := by
  rw [List.map_append, List.append_assoc] at hlink
  obtain ⟨rxf, state, hstate, hframes⟩ := frames_run hrun hm (.inl (by rw [hacc])) hresult
    (fun m h => by rw [hacc, List.length_nil, Nat.zero_add]; exact hfits m h) hlink
  rw [hacc, List.nil_append, Nat.zero_add] at hframes
  obtain ⟨rxf', hlast⟩ := step_of_terminator
    (s := s.drainedTo { state := state, result := result, nchunk := frames.length } (some last :: rest) rxf frames) rfl (readSite_of_drain hrun hm hstate) hcount hpasses
  have hboth := hframes.trans (.of_step hlast)
  exact ⟨rxf', by rw [← State.drainedTo_drainedTo]; exact hboth⟩

end Drain

/-- Settles O55: what the drain writes is the Accumulator, `RXF`, the link's script and the history. -/
theorem drainRuns : Obligations.DrainRuns := by
  intro s frames last result count rest hrun hm hacc hresult hcount hpasses hfits hlink
  obtain ⟨rxf, hruns⟩ := drain_runs hrun hm hacc hresult hcount hpasses hfits hlink
  exact ⟨_, hruns, rfl, rfl, rfl, rfl, rfl, rfl, rfl, rfl, rfl, rfl, rfl, rfl⟩

end Sys2Proof.Machine
end

section
/-! Whole operations (43_sequencer.md R231, R260 to R263): what a run shows of the machine at the entry of each macro-step,
one rule per macro-step that takes it to the next entry, and the four programs as chains of these rules. -/

namespace Sys2Proof.Machine

/-! ### Status responses -/

/-- A data frame with two flag bytes sets the flags and advances (43_sequencer.md R251). -/
theorem step_of_flags {s : State} {raw payload : Bytes} {rest : List (Option Bytes)} {k m : Byte}
    (hlink : s.env.link = some raw :: rest) (hsite : s.readSite? = some .statusResponse)
    (hdata : dataPayload raw = some payload) (hk : payload[0]? = some k) (hm : payload[1]? = some m) :
    ∃ rxf, step s = .next (State.advance { s.readScripted .cmd raw rest rxf with
      stat := { s.stat with keyIsDone := flagOf k, inputMinLen := flagOf m } }) := by
  unfold dataPayload at hdata
  split at hdata
  next f hdecode =>
    cases hdata
    obtain ⟨rxf, hread⟩ := afterRead_of_link hlink .cmd tagR f
    refine ⟨rxf, ?_⟩
    rw [step_of_read hsite (State.linkAnswer_cons hlink).1 hdecode, ReadSite.timeoutClass,
      exec_rspR_of_statusResponse (s := s.afterRead .cmd) hsite, hread]
    exact congrArg _ (State.acceptFlags_of_flags (s := s.readScripted .cmd raw rest rxf)
      (flagOperands_of_getElem hk hm))
  next => cases hdata

/-! ### The progress of an operation -/

/-- What the macro-steps still to come look at, and the events so far. `link`, `captures` and `traces` are what is left of
the agents' scripts. -/
structure Progress where
  op : HostOp
  pc : BitVec 4
  ses : Session
  acc : Accumulator
  stat : TargetStatus
  trace : List Sample
  link : List (Option Bytes)
  captures : List Bool
  traces : List (List Sample)
  events : List Event

def Progress.macroStep? (p : Progress) : Option MacroStep := (program p.op)[p.pc.toNat]?

/-- The Accumulator at the entry of the next macro-step: the entry of a DRAIN clears it (42_accumulator.md R200). -/
def accAtNext (op : HostOp) (pc : BitVec 4) (acc : Accumulator) : Accumulator :=
  if (program op)[(pc + 1).toNat]? = some .drain then { state := .awaiting, result := [], nchunk := 0 } else acc

/-- `t`, reached from `s`, shows a progress. -/
structure Shows (s : State) (p : Progress) (t : State) : Prop where
  seq : t.seq = { state := .run, op := p.op, pc := p.pc }
  cfg : t.cfg = s.cfg
  par : t.par = s.par
  ses : t.ses = p.ses
  acc : t.acc = p.acc
  stat : t.stat = p.stat
  trace : t.out.trace = p.trace
  link : t.env.link = p.link
  captures : t.env.capture = p.captures
  traces : t.env.trace = p.traces
  hist : t.hist = s.hist ++ p.events

/-- `t` shows a progress at the entry of its macro-step: an upload starts with CHECK (41_segmenter.md R170). -/
structure Enters (s : State) (p : Progress) (t : State) : Prop extends Shows s p t where
  seg : ∀ role, p.macroStep? = some (.upload role) → t.seg = { phase := .check, role := role, off := 0 }

/-- `n` steps from `s` come to the entry of a macro-step. -/
def Reached (s : State) (n : Nat) (p : Progress) : Prop := ∃ t, Runs n s t ∧ Enters s p t

section Shows
variable {s t : State} {p : Progress}

theorem Shows.run (h : Shows s p t) : t.seq.state = .run := by rw [h.seq]

theorem Shows.macroStep (h : Shows s p t) {m : MacroStep} (hm : p.macroStep? = some m) : t.macroStep? = some m := by
  rw [State.macroStep?, h.seq]; exact hm

theorem Shows.emit (h : Shows s p t) (e : Event) : Shows s { p with events := p.events ++ [e] } (t.emit e) :=
  { h with hist := by rw [State.emit_hist, h.hist, List.append_assoc] }

/-- Advancing comes to the entry of the next macro-step (43_sequencer.md R232). -/
theorem Shows.advance (h : Shows s p t) :
    Enters s { p with pc := p.pc + 1, acc := accAtNext p.op p.pc p.acc } t.advance := by
  have hnext : t.bumpPc.macroStep? = (program p.op)[(p.pc + 1).toNat]? := by
    simp only [State.macroStep?, State.bumpPc_seq, h.seq]
  refine ⟨⟨by rw [t.advance_seq, h.seq], t.advance_cfg.trans h.cfg, t.advance_par.trans h.par, t.advance_ses.trans h.ses,
    ?acc, t.advance_stat.trans h.stat, by rw [t.advance_out, h.trace], by rw [t.advance_env, h.link],
    by rw [t.advance_env, h.captures], by rw [t.advance_env, h.traces], t.advance_hist.trans h.hist⟩,
    fun role hrole => ?seg⟩
  case acc =>
    obtain ⟨hdrain, hacc⟩ | ⟨hnot, hacc⟩ := t.advance_acc <;> rw [hacc]
    · exact (if_pos (hnext.symm.trans hdrain)).symm
    · exact h.acc.trans (if_neg fun hdrain => hnot (hnext.trans hdrain)).symm
  case seg => rw [State.advance_eq_upload (hnext.trans hrole)]

end Shows

/-- Acceptance of a request comes to the entry of the operation's program (43_sequencer.md R233). -/
theorem reached_of_request {s : State} (hidle : s.seq.state = .idle) {code : BitVec 2} {a : HostArgs}
    (ha : s.hostAnswer = some (.request { op := code, args := a })) {op : HostOp}
    (hexec : ∀ u, exec (decodeHost code a) u = .next (u.present op a)) :
    Reached s 1 ⟨op, 0, ⟨a.input, a.key, a.ad, a.nonce⟩, .reset, .reset, [], s.env.link, s.env.capture,
      s.env.trace, []⟩ := by
  have hstep : step s = .next (s.afterHost.accept op a) := by
    rw [step_of_request hidle ha, hexec, State.present_of_idle (s := s.afterHost) hidle]
  obtain ⟨hlink, hcapture, htrace, -⟩ := s.env.afterHost_frame
  refine ⟨_, .of_step hstep, ⟨⟨rfl, rfl, rfl, rfl, rfl, rfl, rfl, hlink, hcapture, htrace, (List.append_nil _).symm⟩,
    fun role hrole => ?_⟩⟩
  have hflush : (program op)[(0 : BitVec 4).toNat]? = some .flush := by cases op <;> rfl
  cases hflush.symm.trans hrole

/-! ### One rule per macro-step -/

section Rules
variable {s : State} {n : Nat} {op : HostOp} {pc : BitVec 4} {ses : Session} {acc : Accumulator}
  {stat : TargetStatus} {stored : List Sample} {link : List (Option Bytes)} {captures : List Bool}
  {traces : List (List Sample)} {events : List Event}
  (h : Reached s n ⟨op, pc, ses, acc, stat, stored, link, captures, traces, events⟩)
include h

/-- A macro-step completes: from its entry a run advances out of a state that shows what it changed. -/
theorem Reached.leave {m : Nat} {ses' : Session} {acc' : Accumulator} {stat' : TargetStatus} {stored' : List Sample}
    {link' : List (Option Bytes)} {captures' : List Bool} {traces' : List (List Sample)} {events' : List Event}
    (hleave : ∀ t, Enters s ⟨op, pc, ses, acc, stat, stored, link, captures, traces, events⟩ t →
      ∃ r, Runs m t r.advance ∧ Shows s ⟨op, pc, ses', acc', stat', stored', link', captures', traces', events'⟩ r) :
    Reached s (n + m) ⟨op, pc + 1, ses', accAtNext op pc acc', stat', stored', link', captures', traces', events'⟩ := by
  obtain ⟨t, hruns, ht⟩ := h
  obtain ⟨r, hruns', hr⟩ := hleave t ht
  exact ⟨r.advance, hruns.trans hruns', hr.advance⟩

/-- A macro-step that makes one interaction, whose answer no register holds, and advances. -/
theorem Reached.interaction (e : Event)
    (hstep : ∀ t, Enters s ⟨op, pc, ses, acc, stat, stored, link, captures, traces, events⟩ t →
      step t = .next (t.emit e).advance) :
    Reached s (n + 1) ⟨op, pc + 1, ses, accAtNext op pc acc, stat, stored, link, captures, traces, events ++ [e]⟩ :=
  h.leave fun t ht => ⟨t.emit e, .of_step (hstep t ht), ht.emit e⟩

theorem Reached.flush (hm : (program op)[pc.toNat]? = some .flush) :
    Reached s (n + 1) ⟨op, pc + 1, ses, accAtNext op pc acc, stat, stored, link, captures, traces, events ++ [.flush]⟩ :=
  h.interaction _ fun _ ht => step_of_flush ht.run (ht.macroStep hm)

theorem Reached.arm (hm : (program op)[pc.toNat]? = some .arm) :
    Reached s (n + 1) ⟨op, pc + 1, ses, accAtNext op pc acc, stat, stored, link, captures, traces, events ++ [.arm]⟩ :=
  h.interaction _ fun _ ht => step_of_arm ht.run (ht.macroStep hm)

/-- The command of a PERFORM macro-step is sent, and its drain entered (43_sequencer.md R242, R243). -/
theorem Reached.performEnc (hm : (program op)[pc.toNat]? = some .performEnc) (hlen : ses.nonce.length ≤ 255) :
    Reached s (n + 1) ⟨op, pc + 1, ses, accAtNext op pc acc, stat, stored, link, captures, traces,
      events ++ [.send 0x70 0x01 ses.nonce]⟩ :=
  h.interaction _ fun _ ht => by rw [step_of_performEnc ht.run (ht.macroStep hm), ht.ses, sendCommand_of_le hlen]

theorem Reached.performDec (hm : (program op)[pc.toNat]? = some .performDec) (hlen : ses.nonce.length ≤ 255) :
    Reached s (n + 1) ⟨op, pc + 1, ses, accAtNext op pc acc, stat, stored, link, captures, traces,
      events ++ [.send 0x70 0x00 ses.nonce]⟩ :=
  h.interaction _ fun _ ht => by rw [step_of_performDec ht.run (ht.macroStep hm), ht.ses, sendCommand_of_le hlen]

theorem Reached.performHash (hm : (program op)[pc.toNat]? = some .performHash) :
    Reached s (n + 1) ⟨op, pc + 1, ses, accAtNext op pc acc, stat, stored, link, captures, traces,
      events ++ [.send 0x68 0x00 []]⟩ :=
  h.interaction _ fun _ ht => by rw [step_of_performHash ht.run (ht.macroStep hm), sendCommand_of_le (Nat.zero_le _)]

theorem Reached.upload (role : Role) (hm : (program op)[pc.toNat]? = some (.upload role)) {buf : Bytes}
    (hmax : buf.length ≤ role.maxLen s.cfg) {acks : List Bytes} (hcount : acks.length = 1 + (buf.length + 99) / 100)
    (hpass : ∀ raw ∈ acks, passesAck raw) (hbuf : ses.buffer role = buf) {rest : List (Option Bytes)}
    (hlink : link = acks.map some ++ rest) :
    Reached s (n + (4 + 2 * ((buf.length + 99) / 100))) ⟨op, pc + 1, ses, accAtNext op pc acc, stat, stored, rest,
      captures, traces, events ++ uploadEvents role.tag buf acks⟩ := by
  refine h.leave fun t ht => ?_
  obtain rfl : t.ses.buffer role = buf := by rw [ht.ses]; exact hbuf
  obtain ⟨rxf, hruns⟩ := upload_completes ht.run (ht.macroStep hm) (ht.seg role hm) (ht.cfg ▸ hmax) hcount hpass
    (ht.link.trans hlink)
  exact ⟨_, hruns, { ht.toShows with
    link := rfl
    hist := by rw [State.uploadedTo, ht.hist, List.append_assoc] }⟩

/-- NONCE draws an empty nonce and keeps a supplied one (43_sequencer.md R240). -/
theorem Reached.nonce (hm : (program op)[pc.toNat]? = some .nonce) :
    ∃ nonce drawn,
      (ses.nonce ≠ [] ∧ nonce = ses.nonce ∧ drawn = [] ∨
        ses.nonce = [] ∧ nonce.length = s.cfg.nonceLen ∧ drawn = [Event.entropy s.cfg.nonceLen nonce]) ∧
      Reached s (n + 1) ⟨op, pc + 1, { ses with nonce := nonce }, accAtNext op pc acc, stat, stored, link, captures,
        traces, events ++ drawn⟩ := by
  obtain ⟨t, hruns, ht⟩ := h
  have hstep := step_of_nonce ht.run (ht.macroStep hm)
  by_cases hempty : ses.nonce = []
  · rw [State.nonceStep_of_empty (by rw [ht.ses]; exact hempty), ht.cfg] at hstep
    have hdrawn : Shows s ⟨op, pc, { ses with nonce := t.entropyAnswer s.cfg.nonceLen }, acc, stat, stored, link,
        captures, traces, events ++ [.entropy s.cfg.nonceLen (t.entropyAnswer s.cfg.nonceLen)]⟩ (t.drawNonce s.cfg.nonceLen) :=
      { ht.toShows with
        ses := by rw [State.drawNonce_ses, ht.ses]
        hist := by rw [State.drawNonce_hist, ht.hist, List.append_assoc] }
    exact ⟨_, _, .inr ⟨hempty, t.entropyAnswer_length _, rfl⟩, _, hruns.trans (.of_step hstep), hdrawn.advance⟩
  · rw [State.nonceStep_of_supplied (by rw [ht.ses]; exact hempty)] at hstep
    refine ⟨_, _, .inl ⟨hempty, rfl, rfl⟩, _, hruns.trans (.of_step hstep), ?_⟩
    rw [List.append_nil]
    exact ht.advance

theorem Reached.drain (hm : (program op)[pc.toNat]? = some .drain)
    (hacc : acc = { state := .awaiting, result := [], nchunk := 0 }) {frames : List Bytes} {last result : Bytes}
    {count : Byte} (hresult : resultOf frames = some result) (hcount : terminatorCount last = some count)
    (hpasses : terminatorFails s.par.termFailOn frames.length count = false)
    (hfits : ∀ m, s.par.maxResultLen = some m → result.length ≤ m) {rest : List (Option Bytes)}
    (hlink : link = (frames ++ [last]).map some ++ rest) :
    Reached s (n + (frames.length + 1 + 1)) ⟨op, pc + 1, ses,
      accAtNext op pc { state := .done, result := result, nchunk := frames.length }, stat, stored, rest, captures, traces,
      events ++ drainEvents (frames ++ [last])⟩ := by
  refine h.leave fun t ht => ?_
  have hm' := ht.macroStep hm
  obtain ⟨rxf, hruns⟩ := drain_runs ht.run hm' (ht.acc.trans hacc) hresult hcount (ht.par ▸ hpasses) (ht.par ▸ hfits)
    (ht.link.trans hlink)
  have hlast := step_of_drainDone (s := t.drainedTo { state := .done, result := result, nchunk := frames.length } rest
    rxf (frames ++ [last])) ht.run hm' rfl
  exact ⟨_, hruns.trans (.of_step hlast), { ht.toShows with
    acc := rfl
    link := rfl
    hist := by rw [State.drainedTo, ht.hist, List.append_assoc] }⟩

theorem Reached.ack {stage : Stage} (hm : (program op)[pc.toNat]? = some (.ack stage)) {raw : Bytes}
    (hpass : passesAck raw) {rest : List (Option Bytes)} (hlink : link = some raw :: rest) :
    Reached s (n + 1) ⟨op, pc + 1, ses, accAtNext op pc acc, stat, stored, rest, captures, traces,
      events ++ [.read .ack (some raw)]⟩ := by
  refine h.leave fun t ht => ?_
  have hm' := ht.macroStep hm
  obtain ⟨rxf, hack⟩ := step_of_passing_ack (ht.link.trans hlink) (readSite_of_ack ht.run hm') hpass
  rw [State.ackPassed_of_ack (s := State.readScripted .ack raw rest rxf t) hm'] at hack
  exact ⟨_, .of_step hack, { ht.toShows with
    link := rfl
    hist := by rw [State.readScripted, ht.hist, List.append_assoc] }⟩

theorem Reached.capture (hm : (program op)[pc.toNat]? = some .capture) {rest : List Bool}
    (hcaptures : captures = false :: rest) :
    Reached s (n + 1) ⟨op, pc + 1, ses, accAtNext op pc acc, stat, stored, link, rest, traces,
      events ++ [.capture false]⟩ := by
  refine h.leave fun t ht => ?_
  have hscript : t.env.capture = false :: rest := ht.captures.trans hcaptures
  have hanswer : t.captureAnswer = false := by rw [State.captureAnswer, hscript]
  have hafter : t.env.afterCapture = { t.env with capture := rest } := by rw [Environment.afterCapture, hscript]
  have hstep := (step_of_capture ht.run (ht.macroStep hm)).trans (congrArg _ (State.captureStep_of_captured hanswer))
  exact ⟨_, .of_step hstep, { ht.toShows with
    link := by rw [State.afterCapture_env, hafter]; exact ht.link
    captures := by rw [State.afterCapture_env, hafter]
    traces := by rw [State.afterCapture_env, hafter]; exact ht.traces
    hist := by rw [State.afterCapture_hist, ht.hist, hanswer, List.append_assoc] }⟩

theorem Reached.trace (hm : (program op)[pc.toNat]? = some .trace) {samples : List Sample} {rest : List (List Sample)}
    (htraces : traces = samples :: rest) :
    Reached s (n + 1) ⟨op, pc + 1, ses, accAtNext op pc acc, stat, samples, link, captures, rest,
      events ++ [.trace samples]⟩ := by
  refine h.leave fun t ht => ?_
  have hscript : t.env.trace = samples :: rest := ht.traces.trans htraces
  have hanswer : t.traceAnswer = samples := by rw [State.traceAnswer, hscript]
  have hafter : t.env.afterTrace = { t.env with trace := rest } := by rw [Environment.afterTrace, hscript]
  exact ⟨_, .of_step (step_of_trace ht.run (ht.macroStep hm)), { ht.toShows with
    trace := hanswer
    link := by rw [State.afterTrace_env, hafter]; exact ht.link
    captures := by rw [State.afterTrace_env, hafter]; exact ht.captures
    traces := by rw [State.afterTrace_env, hafter]
    hist := by rw [State.afterTrace_hist, ht.hist, hanswer, List.append_assoc] }⟩

/-- COMPLETE responds with what the drain delivered, and with the trace where there is one (43_sequencer.md R246). -/
theorem Reached.complete (hm : (program op)[pc.toNat]? = some .complete) (hop : op ≠ .status) {result : Bytes}
    (hresult : acc.result = result) :
    ∃ t, Runs (n + 1) s t ∧ t.seq = { state := .idle, op := op, pc := pc } ∧
      t.hist = s.hist ++ events ++ [.respond
        { ok := true, result := result, trace := if op = .decrypt then [] else stored,
          traceValid := decide (op ≠ .decrypt), keyIsDone := false, inputMinLen := false, flagsValid := false,
          err := .reset }] := by
  obtain ⟨t, hruns, ht⟩ := h
  refine ⟨_, hruns.trans (.of_step (step_of_complete ht.run (ht.macroStep hm))),
    by rw [State.completeStep_seq, ht.seq], ?_⟩
  have hop' : t.seq.op = op := by rw [ht.seq]
  rw [State.completeStep_hist, ht.hist, State.completeResponse, hop', ht.acc, ht.trace, hresult]
  cases op with
  | encrypt | decrypt | hash => rfl
  | status => exact absurd rfl hop

theorem Reached.sendStatus (hm : (program op)[pc.toNat]? = some .sendStatus) :
    Reached s (n + 1) ⟨op, pc + 1, ses, accAtNext op pc acc, stat, stored, link, captures, traces,
      events ++ [.send 0x73 0x00 []]⟩ :=
  h.interaction _ fun _ ht => by rw [step_of_sendStatus ht.run (ht.macroStep hm), sendCommand_of_le (Nat.zero_le _)]

theorem Reached.readStatus (hm : (program op)[pc.toNat]? = some .readStatus) {raw payload : Bytes}
    (hdata : dataPayload raw = some payload) {a b : Byte} (ha : payload[0]? = some a) (hb : payload[1]? = some b)
    {rest : List (Option Bytes)} (hlink : link = some raw :: rest) :
    Reached s (n + 1) ⟨op, pc + 1, ses, accAtNext op pc acc,
      { stat with keyIsDone := flagOf a, inputMinLen := flagOf b }, stored, rest, captures, traces,
      events ++ [.read .cmd (some raw)]⟩ := by
  refine h.leave fun t ht => ?_
  have hsite : t.readSite? = some .statusResponse := by simp only [State.readSite?, ht.run, ht.macroStep hm]
  obtain ⟨rxf, hread⟩ := step_of_flags (ht.link.trans hlink) hsite hdata ha hb
  exact ⟨_, .of_step hread, { ht.toShows with
    stat := by rw [ht.stat]
    link := rfl
    hist := by rw [State.readScripted, ht.hist, List.append_assoc] }⟩

/-- COMPLETE of STATUS responds with the flags and marks them valid (43_sequencer.md R246). -/
theorem Reached.completeStatus (hm : (program op)[pc.toNat]? = some .complete) (hop : op = .status) :
    ∃ t, Runs (n + 1) s t ∧ t.seq = { state := .idle, op := op, pc := pc } ∧ t.stat = { stat with valid := true } ∧
      t.hist = s.hist ++ events ++ [.respond
        { ok := true, result := [], trace := [], traceValid := false, keyIsDone := stat.keyIsDone,
          inputMinLen := stat.inputMinLen, flagsValid := true, err := .reset }] := by
  obtain ⟨t, hruns, ht⟩ := h
  have hop' : t.seq.op = .status := by rw [ht.seq, hop]
  refine ⟨_, hruns.trans (.of_step (step_of_complete ht.run (ht.macroStep hm))),
    by rw [State.completeStep_seq, ht.seq], ?_, ?_⟩
  · rw [State.completeStep_stat, if_pos hop', ht.stat]
  · rw [State.completeStep_hist, ht.hist, State.completeResponse, hop', ht.stat]

end Rules

/-! ### The programs -/

/-- The nonce that NONCE leaves is one that PERFORM can send, where the supplied one and `NONCE_LEN` allow it. -/
theorem nonce_length_le {supplied nonce : Bytes} {drawn : List Event} {n : Nat} (hsupplied : supplied.length ≤ 255)
    (hn : n ≤ 255) (h : supplied ≠ [] ∧ nonce = supplied ∧ drawn = [] ∨
      supplied = [] ∧ nonce.length = n ∧ drawn = [Event.entropy n nonce]) : nonce.length ≤ 255 := by
  obtain ⟨-, rfl, -⟩ | ⟨-, hlen, -⟩ := h
  · exact hsupplied
  · exact hlen ▸ hn

/-- Settles O56: the rules of the twelve macro-steps of ENCRYPT, in the order of its program. -/
theorem encryptOperationRuns : Obligations.EncryptOperationRuns := by
  intro s a acksI acksK acksA frames last final result count rest cs samples ts hidle ha hinput hkey had hnonce hnonceLen
    hacksI hacksK hacksA hpass hresult hcount hpasses hfits hlink hcaptures htraces
  simp only [List.mem_append, or_imp, forall_and] at hpass
  obtain ⟨⟨⟨hpassI, hpassK⟩, hpassA⟩, hpassF⟩ := hpass
  have hlink' : s.env.link = acksI.map some ++ (acksK.map some ++ (acksA.map some ++ ((frames ++ [last]).map some ++
      (some final :: rest)))) := by simp [hlink]
  obtain ⟨nonce, drawn, hdrawn, h⟩ := (reached_of_request (op := .encrypt) hidle ha fun _ => rfl)
    |>.flush rfl
    |>.upload .input rfl hinput hacksI hpassI rfl hlink'
    |>.upload .key rfl hkey hacksK hpassK rfl rfl
    |>.upload .ad rfl had hacksA hpassA rfl rfl
    |>.nonce rfl
  obtain ⟨t, hruns, hseq, hhist⟩ := h
    |>.arm rfl
    |>.performEnc rfl (nonce_length_le hnonce hnonceLen hdrawn)
    |>.drain rfl rfl hresult hcount hpasses hfits rfl
    |>.ack rfl (hpassF final (List.mem_singleton.2 rfl)) rfl
    |>.capture rfl hcaptures
    |>.trace rfl htraces
    |>.complete (result := result) rfl nofun rfl
  refine ⟨_, t, nonce, drawn, hruns, hseq, hdrawn, hhist.trans ?_⟩
  simp [Role.tag]

/-- Settles O57: the rules of the nine macro-steps of DECRYPT, in the order of its program. -/
theorem decryptOperationRuns : Obligations.DecryptOperationRuns := by
  intro s a acksI acksK acksA frames last final result count rest hidle ha hinput hkey had hnonce hnonceLen
    hacksI hacksK hacksA hpass hresult hcount hpasses hfits hlink
  simp only [List.mem_append, or_imp, forall_and] at hpass
  obtain ⟨⟨⟨hpassI, hpassK⟩, hpassA⟩, hpassF⟩ := hpass
  have hlink' : s.env.link = acksI.map some ++ (acksK.map some ++ (acksA.map some ++ ((frames ++ [last]).map some ++
      (some final :: rest)))) := by simp [hlink]
  obtain ⟨nonce, drawn, hdrawn, h⟩ := (reached_of_request (op := .decrypt) hidle ha fun _ => rfl)
    |>.flush rfl
    |>.upload .input rfl hinput hacksI hpassI rfl hlink'
    |>.upload .key rfl hkey hacksK hpassK rfl rfl
    |>.upload .ad rfl had hacksA hpassA rfl rfl
    |>.nonce rfl
  obtain ⟨t, hruns, hseq, hhist⟩ := h
    |>.performDec rfl (nonce_length_le hnonce hnonceLen hdrawn)
    |>.drain rfl rfl hresult hcount hpasses hfits rfl
    |>.ack rfl (hpassF final (List.mem_singleton.2 rfl)) rfl
    |>.complete (result := result) rfl nofun rfl
  refine ⟨_, t, nonce, drawn, hruns, hseq, hdrawn, hhist.trans ?_⟩
  simp [Role.tag]

/-- Settles O58: the rules of the nine macro-steps of HASH, in the order of its program. -/
theorem hashOperationRuns : Obligations.HashOperationRuns := by
  intro s a acks frames last final result count rest cs samples ts hidle ha hinput hacks hpass hresult hcount hpasses
    hfits hlink hcaptures htraces
  simp only [List.mem_append, or_imp, forall_and] at hpass
  obtain ⟨hpassI, hpassF⟩ := hpass
  have hlink' : s.env.link = acks.map some ++ ((frames ++ [last]).map some ++ (some final :: rest)) := by simp [hlink]
  obtain ⟨t, hruns, hseq, hhist⟩ := (reached_of_request (op := .hash) hidle ha fun _ => rfl)
    |>.flush rfl
    |>.upload .input rfl hinput hacks hpassI rfl hlink'
    |>.arm rfl
    |>.performHash rfl
    |>.drain rfl rfl hresult hcount hpasses hfits rfl
    |>.ack rfl (hpassF final (List.mem_singleton.2 rfl)) rfl
    |>.capture rfl hcaptures
    |>.trace rfl htraces
    |>.complete (result := result) rfl nofun rfl
  refine ⟨_, t, hruns, hseq, hhist.trans ?_⟩
  simp [Role.tag]

/-- Settles O59: the rules of the five macro-steps of STATUS, one step each, after the step of the request. -/
theorem statusOperationRuns : Obligations.StatusOperationRuns := by
  intro s a data final payload k m rest hidle ha hdata hk hm hpass hlink
  obtain ⟨t, hruns, hseq, hstat, hhist⟩ := (reached_of_request (op := .status) hidle ha fun _ => rfl)
    |>.flush rfl
    |>.sendStatus rfl
    |>.readStatus rfl hdata hk hm hlink
    |>.ack rfl hpass rfl
    |>.completeStatus rfl rfl
  refine ⟨t, hruns, hseq, hstat, hhist.trans ?_⟩
  simp

end Sys2Proof.Machine
end
